-- ==== Sys2Proof/Word.lean ====
section
/-! DEFINITION. The word, the byte and the register index (00_scope.md R9, R13; 10_state.md R21). -/

namespace Sys2Proof

/-- A 32-bit Word: register contents, addresses while they are computed, instruction words (R13, R16). -/
abbrev Word := BitVec 32

/-- One byte of memory (R31). -/
abbrev Byte := BitVec 8

/-- The 5-bit index of a general register, as the fields rd, rs1 and rs2 hold it (R21, R82). -/
abbrev Reg := BitVec 5

end Sys2Proof
end

