-- ==== Sys2Proof/Config.lean ====
section
/-! DEFINITION. The parameters of the hardware (00_scope.md R9, 70_reset_and_hazards.md R312) and the free values
of the model (logs 6 and 7). -/

namespace Sys2Proof

/-- What a fetch at a pc that is not a multiple of 4 does (R57, R9: `PC_ALIGN_POLICY`). -/
inductive PcAlignPolicy where
  /-- The four bytes at the unaligned pc are fetched like any others. -/
  | unchecked
  /-- The model gives the step no meaning. -/
  | refuse
  deriving DecidableEq, Repr

/-- The parameters of R9 that a machine may set. A machine's configuration never changes (log 8). -/
structure Config where
  /-- `MEM_BASE`, the first valid byte address. -/
  memBase : Nat
  /-- `MEM_SIZE`, the number of valid bytes. -/
  memSize : Nat
  /-- `TRAP_SIG`, the signature bytes at ascending addresses. -/
  trapSig : List Byte
  /-- `M_ENABLED`, whether the multiply decoder is registered. -/
  mEnabled : Bool
  /-- `PC_ALIGN_POLICY`. -/
  pcAlignPolicy : PcAlignPolicy
  /-- `ENTRY`, the pc of a freshly created Context. -/
  entry : Word
  /-- `INIT_X`, the registers of a freshly created Context (OPEN in the spec). -/
  initX : Vector Word 32
  deriving DecidableEq, Repr

namespace Config

/-- The defaults of R9. `INIT_X` is OPEN in the spec: 0 in every register is a DESIGN CHOICE (log 4, unsafe). -/
def default : Config where
  memBase := 0x80000000
  memSize := 0x00800000
  trapSig := [0xde#8, 0xad#8, 0xbe#8, 0xef#8]
  mEnabled := true
  pcAlignPolicy := .unchecked
  entry := 0x80000000#32
  initX := Vector.replicate 32 0#32

/-- The full configuration: 128 MiB of memory (R9, R50). -/
def full : Config := { default with memSize := 0x08000000 }

/-- `XLEN` (R9). -/
def xlen : Nat := 32
/-- `NREGS` (R9). -/
def nregs : Nat := 32
/-- `ILEN_BYTES` (R9, R80). -/
def ilenBytes : Nat := 4
/-- `PAGE_SIZE` (R9, R58): tracked, read by no rule. -/
def pageSize : Nat := 4096
/-- `NCPU` (R9, R293). -/
def ncpu : Nat := 1

/-- The parameter constraint of R9: the window lies inside the 32-bit address space. -/
abbrev ok (c : Config) : Prop := c.memBase + c.memSize ≤ 2 ^ 32

/-- The bounds check of R52: an access of `n` bytes at `a` is admitted, the sum taken as integers. -/
abbrev admits (c : Config) (a n : Nat) : Prop := c.memBase ≤ a ∧ a + n ≤ c.memBase + c.memSize

/-- FREE VALUE (log 6): the byte at an address that nothing has written since reset (R37, R300, R311, U9). -/
opaque unwrittenByte : Nat → Byte

/-- FREE VALUE (log 7): the byte that the given use of `randomize_tail` puts at an address (R63, U8). -/
opaque tailByte : Nat → Nat → Byte

end Config
end Sys2Proof
end

