-- ==== Sys2Proof/Syntax.lean ====
section
/-! DEFINITION. The 56 instructions of spec/opcode_table.json (30_encoding.md R88 to R98). -/

namespace Sys2Proof

/-- A decoded instruction. Immediates have the width of their format before sign extension: 12 bits for I and S,
13 for B and 21 for J with bit 0 included (R83 to R85, R87), the 20 bits `w[31:12]` for U (R86). Fields that the
decoder does not compare and that have no effect are kept, so that no bit of the word is dropped: rd and rs1 of
ECALL and EBREAK (R96), rs2 of LR.W, aq and rl of the atomics (R97; log 15). -/
inductive Instr where
  -- 41_integer_register.md
  /-- ADD (R131). -/
  | add (rd rs1 rs2 : Reg)
  /-- SUB (R132). -/
  | sub (rd rs1 rs2 : Reg)
  /-- XOR (R133). -/
  | xor (rd rs1 rs2 : Reg)
  /-- OR (R134). -/
  | or (rd rs1 rs2 : Reg)
  /-- AND (R135). -/
  | and (rd rs1 rs2 : Reg)
  /-- SLL (R136). -/
  | sll (rd rs1 rs2 : Reg)
  /-- SRL (R137). -/
  | srl (rd rs1 rs2 : Reg)
  /-- SRA (R138). -/
  | sra (rd rs1 rs2 : Reg)
  /-- SLT (R139). -/
  | slt (rd rs1 rs2 : Reg)
  /-- SLTU (R140). -/
  | sltu (rd rs1 rs2 : Reg)
  -- 42_multiply_divide.md
  /-- MUL (R151). -/
  | mul (rd rs1 rs2 : Reg)
  /-- MULH (R152). -/
  | mulh (rd rs1 rs2 : Reg)
  /-- MULHSU (R153). -/
  | mulhsu (rd rs1 rs2 : Reg)
  /-- MULHU (R154). -/
  | mulhu (rd rs1 rs2 : Reg)
  /-- DIV (R155). -/
  | div (rd rs1 rs2 : Reg)
  /-- DIVU (R156). -/
  | divu (rd rs1 rs2 : Reg)
  /-- REM (R157). -/
  | rem (rd rs1 rs2 : Reg)
  /-- REMU (R158). -/
  | remu (rd rs1 rs2 : Reg)
  -- 43_integer_immediate.md
  /-- ADDI (R171). -/
  | addi (rd rs1 : Reg) (imm : BitVec 12)
  /-- SLTI (R178). -/
  | slti (rd rs1 : Reg) (imm : BitVec 12)
  /-- SLTIU (R179). -/
  | sltiu (rd rs1 : Reg) (imm : BitVec 12)
  /-- XORI (R172). -/
  | xori (rd rs1 : Reg) (imm : BitVec 12)
  /-- ORI (R173). -/
  | ori (rd rs1 : Reg) (imm : BitVec 12)
  /-- ANDI (R174). -/
  | andi (rd rs1 : Reg) (imm : BitVec 12)
  /-- SLLI (R175). -/
  | slli (rd rs1 : Reg) (shamt : BitVec 5)
  /-- SRLI (R176). -/
  | srli (rd rs1 : Reg) (shamt : BitVec 5)
  /-- SRAI (R177). -/
  | srai (rd rs1 : Reg) (shamt : BitVec 5)
  -- 44_loads_stores.md
  /-- LB (R192). -/
  | lb (rd rs1 : Reg) (imm : BitVec 12)
  /-- LH (R193). -/
  | lh (rd rs1 : Reg) (imm : BitVec 12)
  /-- LW (R194). -/
  | lw (rd rs1 : Reg) (imm : BitVec 12)
  /-- LBU (R195). -/
  | lbu (rd rs1 : Reg) (imm : BitVec 12)
  /-- LHU (R196). -/
  | lhu (rd rs1 : Reg) (imm : BitVec 12)
  /-- SB (R198). -/
  | sb (rs1 rs2 : Reg) (imm : BitVec 12)
  /-- SH (R199). -/
  | sh (rs1 rs2 : Reg) (imm : BitVec 12)
  /-- SW (R200). -/
  | sw (rs1 rs2 : Reg) (imm : BitVec 12)
  -- 45_control_transfer.md
  /-- BEQ (R212). -/
  | beq (rs1 rs2 : Reg) (imm : BitVec 13)
  /-- BNE (R213). -/
  | bne (rs1 rs2 : Reg) (imm : BitVec 13)
  /-- BLT (R214). -/
  | blt (rs1 rs2 : Reg) (imm : BitVec 13)
  /-- BGE (R215). -/
  | bge (rs1 rs2 : Reg) (imm : BitVec 13)
  /-- BLTU (R216). -/
  | bltu (rs1 rs2 : Reg) (imm : BitVec 13)
  /-- BGEU (R217). -/
  | bgeu (rs1 rs2 : Reg) (imm : BitVec 13)
  /-- LUI (R218). -/
  | lui (rd : Reg) (imm : BitVec 20)
  /-- AUIPC (R219). -/
  | auipc (rd : Reg) (imm : BitVec 20)
  /-- JAL (R220). -/
  | jal (rd : Reg) (imm : BitVec 21)
  /-- JALR (R221). -/
  | jalr (rd rs1 : Reg) (imm : BitVec 12)
  -- 46_system.md
  /-- ECALL (R231). -/
  | ecall (rd rs1 : Reg)
  /-- EBREAK (R232). -/
  | ebreak (rd rs1 : Reg)
  -- 47_atomics.md
  /-- LR.W (R241). -/
  | lrW (aq rl : Bool) (rd rs1 rs2 : Reg)
  /-- SC.W (R242). -/
  | scW (aq rl : Bool) (rd rs1 rs2 : Reg)
  /-- AMOSWAP.W (R243). -/
  | amoswapW (aq rl : Bool) (rd rs1 rs2 : Reg)
  /-- AMOADD.W (R244). -/
  | amoaddW (aq rl : Bool) (rd rs1 rs2 : Reg)
  /-- AMOXOR.W (R247). -/
  | amoxorW (aq rl : Bool) (rd rs1 rs2 : Reg)
  /-- AMOAND.W (R245). -/
  | amoandW (aq rl : Bool) (rd rs1 rs2 : Reg)
  /-- AMOOR.W (R246). -/
  | amoorW (aq rl : Bool) (rd rs1 rs2 : Reg)
  /-- AMOMIN.W (R249). -/
  | amominW (aq rl : Bool) (rd rs1 rs2 : Reg)
  /-- AMOMAX.W (R248). -/
  | amomaxW (aq rl : Bool) (rd rs1 rs2 : Reg)
  deriving DecidableEq, Repr

/-- The seven formats (00_scope.md R16, 30_encoding.md R81). -/
inductive InstrFormat where
  | r
  | i
  | s
  | b
  | u
  | j
  | atomicR
  deriving DecidableEq, Repr

/-- The named fields of an instruction word that a format lists (R81, R82). -/
inductive FieldName where
  | opcode
  | rd
  | rs1
  | rs2
  | funct3
  | funct7
  | funct5
  | aq
  | rl
  deriving DecidableEq, Repr

end Sys2Proof
end

