-- ==== Sys2Proof/WellFormed.lean ====
section
/-! DEFINITION. Which instructions an encoding can stand for (30_encoding.md R85, R87). -/

namespace Sys2Proof

/-- The instruction is one that some word encodes: a branch offset and a JAL offset have bit 0 equal to 0
(R85, R87). Every other operand fills its field. -/
def Instr.wf : Instr → Bool
  | .beq _ _ imm | .bne _ _ imm | .blt _ _ imm | .bge _ _ imm | .bltu _ _ imm | .bgeu _ _ imm => !imm.getLsbD 0
  | .jal _ imm => !imm.getLsbD 0
  | .add .. | .sub .. | .xor .. | .or .. | .and .. | .sll .. | .srl .. | .sra .. | .slt .. | .sltu .. => true
  | .mul .. | .mulh .. | .mulhsu .. | .mulhu .. | .div .. | .divu .. | .rem .. | .remu .. => true
  | .addi .. | .slti .. | .sltiu .. | .xori .. | .ori .. | .andi .. | .slli .. | .srli .. | .srai .. => true
  | .lb .. | .lh .. | .lw .. | .lbu .. | .lhu .. | .sb .. | .sh .. | .sw .. => true
  | .lui .. | .auipc .. | .jalr .. | .ecall .. | .ebreak .. => true
  | .lrW .. | .scW .. | .amoswapW .. | .amoaddW .. | .amoxorW .. | .amoandW .. | .amoorW .. | .amominW ..
  | .amomaxW .. => true

/-- The instruction is one of the eight that decode only when the multiply decoder is registered (R90). -/
def Instr.isMultiply : Instr → Bool
  | .mul .. | .mulh .. | .mulhsu .. | .mulhu .. | .div .. | .divu .. | .rem .. | .remu .. => true
  | .add .. | .sub .. | .xor .. | .or .. | .and .. | .sll .. | .srl .. | .sra .. | .slt .. | .sltu .. => false
  | .addi .. | .slti .. | .sltiu .. | .xori .. | .ori .. | .andi .. | .slli .. | .srli .. | .srai .. => false
  | .lb .. | .lh .. | .lw .. | .lbu .. | .lhu .. | .sb .. | .sh .. | .sw .. => false
  | .beq .. | .bne .. | .blt .. | .bge .. | .bltu .. | .bgeu .. => false
  | .lui .. | .auipc .. | .jal .. | .jalr .. | .ecall .. | .ebreak .. => false
  | .lrW .. | .scW .. | .amoswapW .. | .amoaddW .. | .amoxorW .. | .amoandW .. | .amoorW .. | .amominW ..
  | .amomaxW .. => false

end Sys2Proof
end

