-- ==== Sys2Proof/Decode.lean ====
section
/-! DEFINITION. Bit fields, the decoder, the encoder and the opcode table (30_encoding.md R80 to R100).
The positions of the fields outside the R format and most selector values are supplied by the spec from general
knowledge (GK2, GK3; log 16). -/

namespace Sys2Proof

/-! ## The Word and bit-field primitives -/

/-- `extract_bits(value, begin, end)`: the bits of `[lo, hi)`, right-aligned (R10). -/
def extractBits (v lo hi : Nat) : Nat := (v >>> lo) &&& ((1 <<< (hi - lo)) - 1)

/-- `concat_bits(value, (b0,e0), (b1,e1), …)`: each range extracted, the first the most significant (R11). -/
def concatBits (v : Nat) (ranges : List (Nat × Nat)) : Nat :=
  ranges.foldl (fun acc r => (acc <<< (r.2 - r.1)) ||| extractBits v r.1 r.2) 0

/-- `sext_N(v)`: the low `n` bits of `v` read as two's complement and extended to 32 bits (R12). -/
def sextBits (n v : Nat) : Word :=
  if v.testBit (n - 1) then BitVec.ofNat 32 (v % 2 ^ n + 2 ^ 32 - 2 ^ n) else BitVec.ofNat 32 (v % 2 ^ n)

/-- `zext_N(v)`: the low `n` bits of `v` as a 32-bit value (R12). -/
def zextBits (n v : Nat) : Word := BitVec.ofNat 32 (v % 2 ^ n)

/-- Byte `k` of the array view of a Word (R16, R36): bits `8k+7` down to `8k`. -/
def wordByte (w : Word) (k : Nat) : Byte := w.extractLsb' (8 * k) 8

/-- Flag `i` of the bit-set view of a Word (R16, R36). -/
def wordFlag (w : Word) (i : Nat) : Bool := w.getLsbD i

/-- The Word whose byte at the lowest address is `b0` (R55, R80). -/
def wordOfBytes (b0 b1 b2 b3 : Byte) : Word := b3 ++ b2 ++ b1 ++ b0

/-! ## Fields of an instruction word (R82) -/

/-- `w[6:0]`. -/
def fieldOpcode (w : Word) : BitVec 7 := w.extractLsb' 0 7
/-- `w[11:7]`. -/
def fieldRd (w : Word) : Reg := w.extractLsb' 7 5
/-- `w[14:12]`. -/
def fieldFunct3 (w : Word) : BitVec 3 := w.extractLsb' 12 3
/-- `w[19:15]`. -/
def fieldRs1 (w : Word) : Reg := w.extractLsb' 15 5
/-- `w[24:20]`. -/
def fieldRs2 (w : Word) : Reg := w.extractLsb' 20 5
/-- `w[31:25]`. -/
def fieldFunct7 (w : Word) : BitVec 7 := w.extractLsb' 25 7
/-- `w[24:20]`, the same bits as rs2. -/
def fieldShamt (w : Word) : BitVec 5 := w.extractLsb' 20 5
/-- `w[31:27]`. -/
def fieldFunct5 (w : Word) : BitVec 5 := w.extractLsb' 27 5
/-- `w[26]`. -/
def fieldAq (w : Word) : Bool := w.getLsbD 26
/-- `w[25]`. -/
def fieldRl (w : Word) : Bool := w.getLsbD 25

/-- The 12 bits `w[31:20]` of the I immediate (R83). -/
def fieldImmI (w : Word) : BitVec 12 := w.extractLsb' 20 12

/-- The 12 bits `w[31:25] ‖ w[11:7]` of the S immediate (R84). -/
def fieldImmS (w : Word) : BitVec 12 := w.extractLsb' 25 7 ++ w.extractLsb' 7 5

/-- The 13 bits `w[31] ‖ w[7] ‖ w[30:25] ‖ w[11:8] ‖ 0` of the B immediate (R85). -/
def fieldImmB (w : Word) : BitVec 13 :=
  w.extractLsb' 31 1 ++ w.extractLsb' 7 1 ++ w.extractLsb' 25 6 ++ w.extractLsb' 8 4 ++ 0#1

/-- The 20 bits `w[31:12]` of the U immediate (R86). -/
def fieldImmU (w : Word) : BitVec 20 := w.extractLsb' 12 20

/-- The 21 bits `w[31] ‖ w[19:12] ‖ w[20] ‖ w[30:21] ‖ 0` of the J immediate (R87). -/
def fieldImmJ (w : Word) : BitVec 21 :=
  w.extractLsb' 31 1 ++ w.extractLsb' 12 8 ++ w.extractLsb' 20 1 ++ w.extractLsb' 21 10 ++ 0#1

/-! ## Formats (R81) -/

/-- The fields of each format, the column Fields of R81's table. -/
def InstrFormat.fields : InstrFormat → List FieldName
  | .r => [.opcode, .rd, .rs1, .rs2, .funct3, .funct7]
  | .i => [.opcode, .rd, .rs1, .funct3]
  | .s => [.opcode, .rs1, .rs2, .funct3]
  | .b => [.opcode, .rs1, .rs2, .funct3]
  | .u => [.opcode, .rd]
  | .j => [.opcode, .rd]
  | .atomicR => [.opcode, .rd, .rs1, .rs2, .funct3, .funct5, .aq, .rl]

/-- The value of a field of a word, at the field's bits in every format that has it (R82). -/
def FieldName.value (w : Word) : FieldName → Nat
  | .opcode => (fieldOpcode w).toNat
  | .rd => (fieldRd w).toNat
  | .rs1 => (fieldRs1 w).toNat
  | .rs2 => (fieldRs2 w).toNat
  | .funct3 => (fieldFunct3 w).toNat
  | .funct7 => (fieldFunct7 w).toNat
  | .funct5 => (fieldFunct5 w).toNat
  | .aq => (fieldAq w).toNat
  | .rl => (fieldRl w).toNat

/-- The immediate that a format assembles from a word, the last column of R81's table; none for R and AtomicR. -/
def InstrFormat.immediate (w : Word) : InstrFormat → Option Word
  | .r => none
  | .i => some ((fieldImmI w).signExtend 32)
  | .s => some ((fieldImmS w).signExtend 32)
  | .b => some ((fieldImmB w).signExtend 32)
  | .u => some (fieldImmU w ++ 0#12)
  | .j => some ((fieldImmJ w).signExtend 32)
  | .atomicR => none

/-- The format that each instruction knows (00_scope.md R16), as the rules R89 to R97 give it: the three shifts by an
immediate (R91), JALR (R95), ECALL and EBREAK (R96) are of format I. -/
def Instr.format : Instr → InstrFormat
  | .add .. | .sub .. | .xor .. | .or .. | .and .. | .sll .. | .srl .. | .sra .. | .slt .. | .sltu .. => .r
  | .mul .. | .mulh .. | .mulhsu .. | .mulhu .. | .div .. | .divu .. | .rem .. | .remu .. => .r
  | .addi .. | .slti .. | .sltiu .. | .xori .. | .ori .. | .andi .. | .slli .. | .srli .. | .srai .. => .i
  | .lb .. | .lh .. | .lw .. | .lbu .. | .lhu .. => .i
  | .sb .. | .sh .. | .sw .. => .s
  | .beq .. | .bne .. | .blt .. | .bge .. | .bltu .. | .bgeu .. => .b
  | .lui .. | .auipc .. => .u
  | .jal .. => .j
  | .jalr .. | .ecall .. | .ebreak .. => .i
  | .lrW .. | .scW .. | .amoswapW .. | .amoaddW .. | .amoxorW .. | .amoandW .. | .amoorW .. | .amominW ..
  | .amomaxW .. => .atomicR

/-! ## The decoder -/

/-- Why a word (or a byte string) is not an instruction. The spec has one class, `None` (R100); the names say which
comparison failed. -/
inductive Rejection where
  /-- The opcode is none of the eleven (R98). -/
  | unknownOpcode
  /-- The opcode is known and its selector fields match no row (R89 to R97). -/
  | unknownSelector
  /-- A multiply or divide word while the multiply decoder is not registered (R90). -/
  | multiplyNotRegistered
  /-- Fewer than four bytes (R80). -/
  | tooFewBytes
  deriving DecidableEq, Repr

/-- Opcode `0110011`, funct7 0 (R89). -/
def decodeOp00 (w : Word) : Except Rejection Instr :=
  match fieldFunct3 w with
  | 0b000#3 => .ok (.add (fieldRd w) (fieldRs1 w) (fieldRs2 w))
  | 0b001#3 => .ok (.sll (fieldRd w) (fieldRs1 w) (fieldRs2 w))
  | 0b010#3 => .ok (.slt (fieldRd w) (fieldRs1 w) (fieldRs2 w))
  | 0b011#3 => .ok (.sltu (fieldRd w) (fieldRs1 w) (fieldRs2 w))
  | 0b100#3 => .ok (.xor (fieldRd w) (fieldRs1 w) (fieldRs2 w))
  | 0b101#3 => .ok (.srl (fieldRd w) (fieldRs1 w) (fieldRs2 w))
  | 0b110#3 => .ok (.or (fieldRd w) (fieldRs1 w) (fieldRs2 w))
  | 0b111#3 => .ok (.and (fieldRd w) (fieldRs1 w) (fieldRs2 w))
  | _ => .error .unknownSelector

/-- Opcode `0110011`, funct7 `0100000` (R89). -/
def decodeOp20 (w : Word) : Except Rejection Instr :=
  match fieldFunct3 w with
  | 0b000#3 => .ok (.sub (fieldRd w) (fieldRs1 w) (fieldRs2 w))
  | 0b101#3 => .ok (.sra (fieldRd w) (fieldRs1 w) (fieldRs2 w))
  | _ => .error .unknownSelector

/-- Opcode `0110011`, funct7 1: multiply and divide (R90). -/
def decodeMultiply (w : Word) : Except Rejection Instr :=
  match fieldFunct3 w with
  | 0b000#3 => .ok (.mul (fieldRd w) (fieldRs1 w) (fieldRs2 w))
  | 0b001#3 => .ok (.mulh (fieldRd w) (fieldRs1 w) (fieldRs2 w))
  | 0b010#3 => .ok (.mulhsu (fieldRd w) (fieldRs1 w) (fieldRs2 w))
  | 0b011#3 => .ok (.mulhu (fieldRd w) (fieldRs1 w) (fieldRs2 w))
  | 0b100#3 => .ok (.div (fieldRd w) (fieldRs1 w) (fieldRs2 w))
  | 0b101#3 => .ok (.divu (fieldRd w) (fieldRs1 w) (fieldRs2 w))
  | 0b110#3 => .ok (.rem (fieldRd w) (fieldRs1 w) (fieldRs2 w))
  | 0b111#3 => .ok (.remu (fieldRd w) (fieldRs1 w) (fieldRs2 w))
  | _ => .error .unknownSelector

/-- Opcode `0110011`: sub-dispatch on (funct3, funct7) (R89, R90). -/
def decodeOp (mEnabled : Bool) (w : Word) : Except Rejection Instr :=
  match fieldFunct7 w with
  | 0b0000000#7 => decodeOp00 w
  | 0b0100000#7 => decodeOp20 w
  | 0b0000001#7 => if mEnabled then decodeMultiply w else .error .multiplyNotRegistered
  | _ => .error .unknownSelector

/-- Opcode `0010011`, funct3 `001`: the left shift immediate (R91). -/
def decodeSlli (w : Word) : Except Rejection Instr :=
  match fieldFunct7 w with
  | 0b0000000#7 => .ok (.slli (fieldRd w) (fieldRs1 w) (fieldShamt w))
  | _ => .error .unknownSelector

/-- Opcode `0010011`, funct3 `101`: the right shifts immediate (R91). -/
def decodeSri (w : Word) : Except Rejection Instr :=
  match fieldFunct7 w with
  | 0b0000000#7 => .ok (.srli (fieldRd w) (fieldRs1 w) (fieldShamt w))
  | 0b0100000#7 => .ok (.srai (fieldRd w) (fieldRs1 w) (fieldShamt w))
  | _ => .error .unknownSelector

/-- Opcode `0010011`: register-immediate (R91). -/
def decodeOpImm (w : Word) : Except Rejection Instr :=
  match fieldFunct3 w with
  | 0b000#3 => .ok (.addi (fieldRd w) (fieldRs1 w) (fieldImmI w))
  | 0b001#3 => decodeSlli w
  | 0b010#3 => .ok (.slti (fieldRd w) (fieldRs1 w) (fieldImmI w))
  | 0b011#3 => .ok (.sltiu (fieldRd w) (fieldRs1 w) (fieldImmI w))
  | 0b100#3 => .ok (.xori (fieldRd w) (fieldRs1 w) (fieldImmI w))
  | 0b101#3 => decodeSri w
  | 0b110#3 => .ok (.ori (fieldRd w) (fieldRs1 w) (fieldImmI w))
  | 0b111#3 => .ok (.andi (fieldRd w) (fieldRs1 w) (fieldImmI w))
  | _ => .error .unknownSelector

/-- Opcode `0000011`: loads (R92). -/
def decodeLoad (w : Word) : Except Rejection Instr :=
  match fieldFunct3 w with
  | 0b000#3 => .ok (.lb (fieldRd w) (fieldRs1 w) (fieldImmI w))
  | 0b001#3 => .ok (.lh (fieldRd w) (fieldRs1 w) (fieldImmI w))
  | 0b010#3 => .ok (.lw (fieldRd w) (fieldRs1 w) (fieldImmI w))
  | 0b100#3 => .ok (.lbu (fieldRd w) (fieldRs1 w) (fieldImmI w))
  | 0b101#3 => .ok (.lhu (fieldRd w) (fieldRs1 w) (fieldImmI w))
  | _ => .error .unknownSelector

/-- Opcode `0100011`: stores (R93). -/
def decodeStore (w : Word) : Except Rejection Instr :=
  match fieldFunct3 w with
  | 0b000#3 => .ok (.sb (fieldRs1 w) (fieldRs2 w) (fieldImmS w))
  | 0b001#3 => .ok (.sh (fieldRs1 w) (fieldRs2 w) (fieldImmS w))
  | 0b010#3 => .ok (.sw (fieldRs1 w) (fieldRs2 w) (fieldImmS w))
  | _ => .error .unknownSelector

/-- Opcode `1100011`: branches (R94). -/
def decodeBranch (w : Word) : Except Rejection Instr :=
  match fieldFunct3 w with
  | 0b000#3 => .ok (.beq (fieldRs1 w) (fieldRs2 w) (fieldImmB w))
  | 0b001#3 => .ok (.bne (fieldRs1 w) (fieldRs2 w) (fieldImmB w))
  | 0b100#3 => .ok (.blt (fieldRs1 w) (fieldRs2 w) (fieldImmB w))
  | 0b101#3 => .ok (.bge (fieldRs1 w) (fieldRs2 w) (fieldImmB w))
  | 0b110#3 => .ok (.bltu (fieldRs1 w) (fieldRs2 w) (fieldImmB w))
  | 0b111#3 => .ok (.bgeu (fieldRs1 w) (fieldRs2 w) (fieldImmB w))
  | _ => .error .unknownSelector

/-- Opcode `1100111`: JALR (R95). -/
def decodeJalr (w : Word) : Except Rejection Instr :=
  match fieldFunct3 w with
  | 0b000#3 => .ok (.jalr (fieldRd w) (fieldRs1 w) (fieldImmI w))
  | _ => .error .unknownSelector

/-- Opcode `1110011`: the immediate 0x000 or 0x001 under funct3 0; rd and rs1 are not compared (R96). -/
def decodeSystem (w : Word) : Except Rejection Instr :=
  match fieldFunct3 w, fieldImmI w with
  | 0b000#3, 0x000#12 => .ok (.ecall (fieldRd w) (fieldRs1 w))
  | 0b000#3, 0x001#12 => .ok (.ebreak (fieldRd w) (fieldRs1 w))
  | _, _ => .error .unknownSelector

/-- The operation of an atomic word with funct3 2, selected by funct5 (R97). -/
def decodeFunct5 (w : Word) : Except Rejection (Bool → Bool → Reg → Reg → Reg → Instr) :=
  match fieldFunct5 w with
  | 0b00000#5 => .ok .amoaddW
  | 0b00001#5 => .ok .amoswapW
  | 0b00010#5 => .ok .lrW
  | 0b00011#5 => .ok .scW
  | 0b00100#5 => .ok .amoxorW
  | 0b01000#5 => .ok .amoorW
  | 0b01100#5 => .ok .amoandW
  | 0b10000#5 => .ok .amominW
  | 0b10100#5 => .ok .amomaxW
  | _ => .error .unknownSelector

/-- Opcode `0101111`: atomics (R97). -/
def decodeAtomic (w : Word) : Except Rejection Instr :=
  match fieldFunct3 w with
  | 0b010#3 => (decodeFunct5 w).map fun op => op (fieldAq w) (fieldRl w) (fieldRd w) (fieldRs1 w) (fieldRs2 w)
  | _ => .error .unknownSelector

/-- The decoder: dispatch on the opcode, total on every word, rejecting by name (R88, R98). -/
def decodeWord (mEnabled : Bool) (w : Word) : Except Rejection Instr :=
  match fieldOpcode w with
  | 0b0110011#7 => decodeOp mEnabled w
  | 0b0010011#7 => decodeOpImm w
  | 0b0000011#7 => decodeLoad w
  | 0b0100011#7 => decodeStore w
  | 0b1100011#7 => decodeBranch w
  | 0b0110111#7 => .ok (.lui (fieldRd w) (fieldImmU w))
  | 0b0010111#7 => .ok (.auipc (fieldRd w) (fieldImmU w))
  | 0b1101111#7 => .ok (.jal (fieldRd w) (fieldImmJ w))
  | 0b1100111#7 => decodeJalr w
  | 0b1110011#7 => decodeSystem w
  | 0b0101111#7 => decodeAtomic w
  | _ => .error .unknownOpcode

/-- The contract of R88: `decode(word: u32) -> Option<Instruction>`. -/
def decode (mEnabled : Bool) (w : Word) : Option Instr := (decodeWord mEnabled w).toOption

/-- Decoding from bytes in ascending address order: the instruction and the bytes after it (R80). -/
def decodeBytes (mEnabled : Bool) : List Byte → Except Rejection (Instr × List Byte)
  | b0 :: b1 :: b2 :: b3 :: rest => (decodeWord mEnabled (wordOfBytes b0 b1 b2 b3)).map fun i => (i, rest)
  | _ => .error .tooFewBytes

/-! ## The encoder -/

/-- The R layout of R81. -/
def encodeR (f7 : BitVec 7) (rs2 rs1 : Reg) (f3 : BitVec 3) (rd : Reg) (op : BitVec 7) : Word :=
  f7 ++ rs2 ++ rs1 ++ f3 ++ rd ++ op

/-- The I layout of R81. -/
def encodeI (imm : BitVec 12) (rs1 : Reg) (f3 : BitVec 3) (rd : Reg) (op : BitVec 7) : Word :=
  imm ++ rs1 ++ f3 ++ rd ++ op

/-- The I layout of a shift by an immediate: `imm[11:0]` is `w[31:25] ‖ shamt` (R82, R91). -/
def encodeShift (f7 : BitVec 7) (shamt : BitVec 5) (rs1 : Reg) (f3 : BitVec 3) (rd : Reg) (op : BitVec 7) : Word :=
  encodeI (f7 ++ shamt) rs1 f3 rd op

/-- The S layout of R81. -/
def encodeS (imm : BitVec 12) (rs2 rs1 : Reg) (f3 : BitVec 3) (op : BitVec 7) : Word :=
  imm.extractLsb' 5 7 ++ rs2 ++ rs1 ++ f3 ++ imm.extractLsb' 0 5 ++ op

/-- The B layout of R81. -/
def encodeB (imm : BitVec 13) (rs2 rs1 : Reg) (f3 : BitVec 3) (op : BitVec 7) : Word :=
  imm.extractLsb' 12 1 ++ imm.extractLsb' 5 6 ++ rs2 ++ rs1 ++ f3 ++ imm.extractLsb' 1 4 ++ imm.extractLsb' 11 1 ++ op

/-- The U layout of R81. -/
def encodeU (imm : BitVec 20) (rd : Reg) (op : BitVec 7) : Word := imm ++ rd ++ op

/-- The J layout of R81. -/
def encodeJ (imm : BitVec 21) (rd : Reg) (op : BitVec 7) : Word :=
  imm.extractLsb' 20 1 ++ imm.extractLsb' 1 10 ++ imm.extractLsb' 11 1 ++ imm.extractLsb' 12 8 ++ rd ++ op

/-- The AtomicR layout of R81. -/
def encodeA (f5 : BitVec 5) (aq rl : Bool) (rs2 rs1 rd : Reg) : Word :=
  f5 ++ BitVec.ofBool aq ++ BitVec.ofBool rl ++ rs2 ++ rs1 ++ 0b010#3 ++ rd ++ 0b0101111#7

/-- The word of an instruction, from the tables of R89 to R97. -/
def encode : Instr → Word
  | .add rd rs1 rs2 => encodeR 0b0000000#7 rs2 rs1 0b000#3 rd 0b0110011#7
  | .sub rd rs1 rs2 => encodeR 0b0100000#7 rs2 rs1 0b000#3 rd 0b0110011#7
  | .xor rd rs1 rs2 => encodeR 0b0000000#7 rs2 rs1 0b100#3 rd 0b0110011#7
  | .or rd rs1 rs2 => encodeR 0b0000000#7 rs2 rs1 0b110#3 rd 0b0110011#7
  | .and rd rs1 rs2 => encodeR 0b0000000#7 rs2 rs1 0b111#3 rd 0b0110011#7
  | .sll rd rs1 rs2 => encodeR 0b0000000#7 rs2 rs1 0b001#3 rd 0b0110011#7
  | .srl rd rs1 rs2 => encodeR 0b0000000#7 rs2 rs1 0b101#3 rd 0b0110011#7
  | .sra rd rs1 rs2 => encodeR 0b0100000#7 rs2 rs1 0b101#3 rd 0b0110011#7
  | .slt rd rs1 rs2 => encodeR 0b0000000#7 rs2 rs1 0b010#3 rd 0b0110011#7
  | .sltu rd rs1 rs2 => encodeR 0b0000000#7 rs2 rs1 0b011#3 rd 0b0110011#7
  | .mul rd rs1 rs2 => encodeR 0b0000001#7 rs2 rs1 0b000#3 rd 0b0110011#7
  | .mulh rd rs1 rs2 => encodeR 0b0000001#7 rs2 rs1 0b001#3 rd 0b0110011#7
  | .mulhsu rd rs1 rs2 => encodeR 0b0000001#7 rs2 rs1 0b010#3 rd 0b0110011#7
  | .mulhu rd rs1 rs2 => encodeR 0b0000001#7 rs2 rs1 0b011#3 rd 0b0110011#7
  | .div rd rs1 rs2 => encodeR 0b0000001#7 rs2 rs1 0b100#3 rd 0b0110011#7
  | .divu rd rs1 rs2 => encodeR 0b0000001#7 rs2 rs1 0b101#3 rd 0b0110011#7
  | .rem rd rs1 rs2 => encodeR 0b0000001#7 rs2 rs1 0b110#3 rd 0b0110011#7
  | .remu rd rs1 rs2 => encodeR 0b0000001#7 rs2 rs1 0b111#3 rd 0b0110011#7
  | .addi rd rs1 imm => encodeI imm rs1 0b000#3 rd 0b0010011#7
  | .slti rd rs1 imm => encodeI imm rs1 0b010#3 rd 0b0010011#7
  | .sltiu rd rs1 imm => encodeI imm rs1 0b011#3 rd 0b0010011#7
  | .xori rd rs1 imm => encodeI imm rs1 0b100#3 rd 0b0010011#7
  | .ori rd rs1 imm => encodeI imm rs1 0b110#3 rd 0b0010011#7
  | .andi rd rs1 imm => encodeI imm rs1 0b111#3 rd 0b0010011#7
  | .slli rd rs1 shamt => encodeShift 0b0000000#7 shamt rs1 0b001#3 rd 0b0010011#7
  | .srli rd rs1 shamt => encodeShift 0b0000000#7 shamt rs1 0b101#3 rd 0b0010011#7
  | .srai rd rs1 shamt => encodeShift 0b0100000#7 shamt rs1 0b101#3 rd 0b0010011#7
  | .lb rd rs1 imm => encodeI imm rs1 0b000#3 rd 0b0000011#7
  | .lh rd rs1 imm => encodeI imm rs1 0b001#3 rd 0b0000011#7
  | .lw rd rs1 imm => encodeI imm rs1 0b010#3 rd 0b0000011#7
  | .lbu rd rs1 imm => encodeI imm rs1 0b100#3 rd 0b0000011#7
  | .lhu rd rs1 imm => encodeI imm rs1 0b101#3 rd 0b0000011#7
  | .sb rs1 rs2 imm => encodeS imm rs2 rs1 0b000#3 0b0100011#7
  | .sh rs1 rs2 imm => encodeS imm rs2 rs1 0b001#3 0b0100011#7
  | .sw rs1 rs2 imm => encodeS imm rs2 rs1 0b010#3 0b0100011#7
  | .beq rs1 rs2 imm => encodeB imm rs2 rs1 0b000#3 0b1100011#7
  | .bne rs1 rs2 imm => encodeB imm rs2 rs1 0b001#3 0b1100011#7
  | .blt rs1 rs2 imm => encodeB imm rs2 rs1 0b100#3 0b1100011#7
  | .bge rs1 rs2 imm => encodeB imm rs2 rs1 0b101#3 0b1100011#7
  | .bltu rs1 rs2 imm => encodeB imm rs2 rs1 0b110#3 0b1100011#7
  | .bgeu rs1 rs2 imm => encodeB imm rs2 rs1 0b111#3 0b1100011#7
  | .lui rd imm => encodeU imm rd 0b0110111#7
  | .auipc rd imm => encodeU imm rd 0b0010111#7
  | .jal rd imm => encodeJ imm rd 0b1101111#7
  | .jalr rd rs1 imm => encodeI imm rs1 0b000#3 rd 0b1100111#7
  | .ecall rd rs1 => encodeI 0x000#12 rs1 0b000#3 rd 0b1110011#7
  | .ebreak rd rs1 => encodeI 0x001#12 rs1 0b000#3 rd 0b1110011#7
  | .lrW aq rl rd rs1 rs2 => encodeA 0b00010#5 aq rl rs2 rs1 rd
  | .scW aq rl rd rs1 rs2 => encodeA 0b00011#5 aq rl rs2 rs1 rd
  | .amoswapW aq rl rd rs1 rs2 => encodeA 0b00001#5 aq rl rs2 rs1 rd
  | .amoaddW aq rl rd rs1 rs2 => encodeA 0b00000#5 aq rl rs2 rs1 rd
  | .amoxorW aq rl rd rs1 rs2 => encodeA 0b00100#5 aq rl rs2 rs1 rd
  | .amoandW aq rl rd rs1 rs2 => encodeA 0b01100#5 aq rl rs2 rs1 rd
  | .amoorW aq rl rd rs1 rs2 => encodeA 0b01000#5 aq rl rs2 rs1 rd
  | .amominW aq rl rd rs1 rs2 => encodeA 0b10000#5 aq rl rs2 rs1 rd
  | .amomaxW aq rl rd rs1 rs2 => encodeA 0b10100#5 aq rl rs2 rs1 rd

/-- The four bytes of an instruction in ascending address order (R80). -/
def encodeBytes (i : Instr) : List Byte :=
  [wordByte (encode i) 0, wordByte (encode i) 1, wordByte (encode i) 2, wordByte (encode i) 3]

/-! ## The opcode table -/

/-- A row of the opcode table: a word `w` selects the instruction iff `w & mask == match` (R88). -/
structure OpcodeRow where
  mask : Word
  bits : Word
  deriving DecidableEq, Repr

/-- The row of an instruction, as spec/opcode_table.json and the tables of R89 to R97 print it. -/
def Instr.row : Instr → OpcodeRow
  | .add .. => ⟨0xFE00707F#32, 0x00000033#32⟩
  | .sub .. => ⟨0xFE00707F#32, 0x40000033#32⟩
  | .sll .. => ⟨0xFE00707F#32, 0x00001033#32⟩
  | .slt .. => ⟨0xFE00707F#32, 0x00002033#32⟩
  | .sltu .. => ⟨0xFE00707F#32, 0x00003033#32⟩
  | .xor .. => ⟨0xFE00707F#32, 0x00004033#32⟩
  | .srl .. => ⟨0xFE00707F#32, 0x00005033#32⟩
  | .sra .. => ⟨0xFE00707F#32, 0x40005033#32⟩
  | .or .. => ⟨0xFE00707F#32, 0x00006033#32⟩
  | .and .. => ⟨0xFE00707F#32, 0x00007033#32⟩
  | .mul .. => ⟨0xFE00707F#32, 0x02000033#32⟩
  | .mulh .. => ⟨0xFE00707F#32, 0x02001033#32⟩
  | .mulhsu .. => ⟨0xFE00707F#32, 0x02002033#32⟩
  | .mulhu .. => ⟨0xFE00707F#32, 0x02003033#32⟩
  | .div .. => ⟨0xFE00707F#32, 0x02004033#32⟩
  | .divu .. => ⟨0xFE00707F#32, 0x02005033#32⟩
  | .rem .. => ⟨0xFE00707F#32, 0x02006033#32⟩
  | .remu .. => ⟨0xFE00707F#32, 0x02007033#32⟩
  | .addi .. => ⟨0x0000707F#32, 0x00000013#32⟩
  | .slti .. => ⟨0x0000707F#32, 0x00002013#32⟩
  | .sltiu .. => ⟨0x0000707F#32, 0x00003013#32⟩
  | .xori .. => ⟨0x0000707F#32, 0x00004013#32⟩
  | .ori .. => ⟨0x0000707F#32, 0x00006013#32⟩
  | .andi .. => ⟨0x0000707F#32, 0x00007013#32⟩
  | .slli .. => ⟨0xFE00707F#32, 0x00001013#32⟩
  | .srli .. => ⟨0xFE00707F#32, 0x00005013#32⟩
  | .srai .. => ⟨0xFE00707F#32, 0x40005013#32⟩
  | .lb .. => ⟨0x0000707F#32, 0x00000003#32⟩
  | .lh .. => ⟨0x0000707F#32, 0x00001003#32⟩
  | .lw .. => ⟨0x0000707F#32, 0x00002003#32⟩
  | .lbu .. => ⟨0x0000707F#32, 0x00004003#32⟩
  | .lhu .. => ⟨0x0000707F#32, 0x00005003#32⟩
  | .sb .. => ⟨0x0000707F#32, 0x00000023#32⟩
  | .sh .. => ⟨0x0000707F#32, 0x00001023#32⟩
  | .sw .. => ⟨0x0000707F#32, 0x00002023#32⟩
  | .beq .. => ⟨0x0000707F#32, 0x00000063#32⟩
  | .bne .. => ⟨0x0000707F#32, 0x00001063#32⟩
  | .blt .. => ⟨0x0000707F#32, 0x00004063#32⟩
  | .bge .. => ⟨0x0000707F#32, 0x00005063#32⟩
  | .bltu .. => ⟨0x0000707F#32, 0x00006063#32⟩
  | .bgeu .. => ⟨0x0000707F#32, 0x00007063#32⟩
  | .lui .. => ⟨0x0000007F#32, 0x00000037#32⟩
  | .auipc .. => ⟨0x0000007F#32, 0x00000017#32⟩
  | .jal .. => ⟨0x0000007F#32, 0x0000006F#32⟩
  | .jalr .. => ⟨0x0000707F#32, 0x00000067#32⟩
  | .ecall .. => ⟨0xFFF0707F#32, 0x00000073#32⟩
  | .ebreak .. => ⟨0xFFF0707F#32, 0x00100073#32⟩
  | .lrW .. => ⟨0xF800707F#32, 0x1000202F#32⟩
  | .scW .. => ⟨0xF800707F#32, 0x1800202F#32⟩
  | .amoswapW .. => ⟨0xF800707F#32, 0x0800202F#32⟩
  | .amoaddW .. => ⟨0xF800707F#32, 0x0000202F#32⟩
  | .amoxorW .. => ⟨0xF800707F#32, 0x2000202F#32⟩
  | .amoandW .. => ⟨0xF800707F#32, 0x6000202F#32⟩
  | .amoorW .. => ⟨0xF800707F#32, 0x4000202F#32⟩
  | .amominW .. => ⟨0xF800707F#32, 0x8000202F#32⟩
  | .amomaxW .. => ⟨0xF800707F#32, 0xA000202F#32⟩

/-- One instruction for each row, all operands 0, in the order of spec/opcode_table.json. -/
def rowInstrs : List Instr := List.flatten [
  [.add 0 0 0, .sub 0 0 0, .sll 0 0 0, .slt 0 0 0, .sltu 0 0 0, .xor 0 0 0, .srl 0 0 0, .sra 0 0 0, .or 0 0 0, .and 0 0 0],
  [.mul 0 0 0, .mulh 0 0 0, .mulhsu 0 0 0, .mulhu 0 0 0, .div 0 0 0, .divu 0 0 0, .rem 0 0 0, .remu 0 0 0],
  [.addi 0 0 0, .slti 0 0 0, .sltiu 0 0 0, .xori 0 0 0, .ori 0 0 0, .andi 0 0 0, .slli 0 0 0, .srli 0 0 0, .srai 0 0 0],
  [.lb 0 0 0, .lh 0 0 0, .lw 0 0 0, .lbu 0 0 0, .lhu 0 0 0, .sb 0 0 0, .sh 0 0 0, .sw 0 0 0],
  [.beq 0 0 0, .bne 0 0 0, .blt 0 0 0, .bge 0 0 0, .bltu 0 0 0, .bgeu 0 0 0],
  [.lui 0 0, .auipc 0 0, .jal 0 0, .jalr 0 0 0, .ecall 0 0, .ebreak 0 0],
  [.lrW false false 0 0 0, .scW false false 0 0 0, .amoswapW false false 0 0 0, .amoaddW false false 0 0 0],
  [.amoxorW false false 0 0 0, .amoandW false false 0 0 0, .amoorW false false 0 0 0, .amominW false false 0 0 0],
  [.amomaxW false false 0 0 0]]

/-- The 56 rows of the opcode table. -/
def opcodeRows : List OpcodeRow := rowInstrs.map Instr.row

/-- The word selects the row (R88). -/
abbrev OpcodeRow.selects (r : OpcodeRow) (w : Word) : Prop := w &&& r.mask = r.bits

/-! ## The host's reading of a table word -/

/-- The four bytes, in ascending address order, of an instruction whose bits are `w`; the bits from `nbits` up are 0. -/
def tableWordBytes (nbits w : Nat) : List Byte :=
  let v : Word := BitVec.ofNat 32 (w % 2 ^ nbits)
  [wordByte v 0, wordByte v 1, wordByte v 2, wordByte v 3]

/-- The instruction that the decoder, with the default configuration, reads from those bytes. -/
def decodeTableWord (nbits w : Nat) : Option Instr :=
  ((decodeBytes Config.default.mEnabled (tableWordBytes nbits w)).toOption).map Prod.fst

end Sys2Proof
end

