-- ==== Sys2Proof/Machine/State.lean ====
section
/-! DEFINITION. The state of the machine (10_state.md R20 to R37), what a step reports to the host
(60_exceptions.md R270, R271, R276), the reasons a step can stop, and the state after reset. -/

namespace Sys2Proof.Machine

/-- `cpu_state` (R29): `running` from attach to detach, `vacant` when no task is attached. -/
inductive CpuState where
  | vacant
  | running
  deriving DecidableEq, Repr

/-- Why a `PauseTask` event was emitted (R126). -/
inductive PauseCause where
  | envCall
  | envBreak
  deriving DecidableEq, Repr

/-- The two events that the CPU emits (R276). -/
inductive Event where
  /-- The trap signature was fetched (R114). -/
  | taskFinished
  /-- ECALL or EBREAK was executed (R116). -/
  | pauseTask (cause : PauseCause)
  deriving DecidableEq, Repr

/-- The statuses of a fatal step error (R17, R122). -/
inductive FatalStatus where
  | memoryViolation
  | invalidInstruction
  /-- Never produced (R275). -/
  | unknown
  deriving DecidableEq, Repr

/-- What a step reports to the host (the last column of R117): an event, or a fatal step error. -/
inductive Report where
  | event (e : Event)
  | fatal (status : FatalStatus)
  deriving DecidableEq, Repr

/-- The outcome of executing one instruction (R270). -/
inductive ExecutionStatus where
  | success
  | memoryViolation
  | invalidInstruction
  | envCall
  | envBreak
  | unknown
  deriving DecidableEq, Repr

/-- The outcome of one step (R122). -/
inductive StepOutcome where
  | continue
  | finished
  | paused (cause : PauseCause)
  | fatal (status : FatalStatus)
  deriving DecidableEq, Repr

/-- The opaque task identifier (R29; its type is the model's, log 9). -/
abbrev TaskId := Nat

/-- Memory as address and byte pairs; an address with no pair is a byte that nothing has written since reset (R31,
log 6). -/
abbrev Memory := List Host.Cell

/-- The Context (R20): program counter, instruction register, register file, reservation. -/
structure Context where
  /-- `pc` (R25). -/
  pc : Word
  /-- `IR` (R27). -/
  ir : Word
  /-- `x[0..31]` (R21); slot 0 is stored as the host gave it and never read (R123, R310). -/
  x : Vector Word 32
  /-- `resv` (R28). -/
  resv : Option Word
  deriving DecidableEq, Repr

/-- The whole machine: R20's seven pieces of state, its configuration (log 8), and two fields of the model's own,
`report` (log 2) and `draws` (log 7). -/
structure State where
  /-- The parameters of R9; no operation changes them. -/
  cfg : Config
  /-- `cpu_state` (R29). -/
  cpuState : CpuState
  /-- `task_id` (R29). -/
  taskId : Option TaskId
  /-- The Context: the CPU's while Running, in the host's hands while Vacant (R30, log 3). -/
  ctx : Context
  /-- `mem` (R31). -/
  mem : Memory
  /-- What the last step reported to the host; a fatal status stays until the next attach (R128, log 12). -/
  report : Option Report
  /-- How many uses of `randomize_tail` have drawn free bytes (R63, log 7). -/
  draws : Nat
  deriving DecidableEq, Repr

/-- Why the machine stops with a fault. -/
inductive Fault where
  /-- A fatal step error (R111, R279): `memoryViolation` raised by the fetch of any step and by the accesses of loads,
  stores and atomics; `invalidInstruction` raised by the decode of any step. `left` is the state that R117 gives at
  that outcome. Safe: the machine stops where the spec reports a fatal error to the host (log 1). -/
  | fatalStepError (status : FatalStatus) (left : State)
  /-- Raised by a step from a state that records a fatal step error: no such step is defined (R128, U2). Safe: the
  model gives no behaviour where the spec gives none (log 12). -/
  | stuckAfterFatal
  deriving DecidableEq, Repr

/-- Why a request has no meaning. -/
inductive Refusal where
  /-- An instruction of the table that the model gives no meaning yet; no arm of exec raises it. Safe. -/
  | notModelled (mnemonic : String)
  /-- A step or execute_shuttle requested of a Vacant CPU (R121, U6). Safe: the spec gives it no behaviour (log 13). -/
  | stepWhileVacant
  /-- attach to a Running CPU (R121, U6). Safe (log 13). -/
  | attachWhileRunning
  /-- detach of a Vacant CPU (R121, U6). Safe (log 13). -/
  | detachWhileVacant
  /-- A step at a pc that is not a multiple of 4 under `PC_ALIGN_POLICY = refuse` (R57, U13). Safe (log 14). -/
  | unalignedPc
  deriving DecidableEq, Repr

/-- What an operation of the machine answers. -/
abbrev Result := Host.Outcome State Fault Refusal

namespace State

/-- `pc <- t` (R25). -/
def setPc (s : State) (t : Word) : State := { s with ctx := { s.ctx with pc := t } }

/-- `IR <- w` (R27). -/
def setIr (s : State) (w : Word) : State := { s with ctx := { s.ctx with ir := w } }

/-- The register file replaced as a whole. -/
def setX (s : State) (x : Vector Word 32) : State := { s with ctx := { s.ctx with x := x } }

/-- `resv <- r` (R28). -/
def setResv (s : State) (r : Option Word) : State := { s with ctx := { s.ctx with resv := r } }

/-- Memory replaced as a whole. -/
def setMem (s : State) (m : Memory) : State := { s with mem := m }

/-- The report replaced. -/
def setReport (s : State) (r : Option Report) : State := { s with report := r }

/-- `task_id <- none`, `cpu_state <- Vacant`; the Context and memory as they are (R124). -/
def detached (s : State) : State := { s with cpuState := .vacant, taskId := none }

end State

/-- A freshly created Context (R37, R301): pc at `ENTRY`, no reservation, the registers `INIT_X`. `IR` is unspecified in
the spec; 0 is a DESIGN CHOICE (log 5, unsafe). -/
def freshContext (cfg : Config) : Context where
  pc := cfg.entry
  ir := 0#32
  x := cfg.initX
  resv := none

/-- Machine reset (R300): creation of the machine. The CPU is Vacant; the fresh Context stands in the host's hands for
the first attach (log 3); nothing in memory is written. -/
def machineReset (cfg : Config) : State where
  cfg := cfg
  cpuState := .vacant
  taskId := none
  ctx := freshContext cfg
  mem := []
  report := none
  draws := 0

/-- The machine right after reset, with the default parameters of R9. -/
def State.reset : State := machineReset Config.default

end Sys2Proof.Machine
end

