-- ==== Sys2Proof/Machine/Memory.lean ====
section
/-! DEFINITION. Memory as a list of address and byte pairs: one byte, little-endian values, byte sequences
(20_memory.md R54, R55). -/

namespace Sys2Proof.Machine

/-- What an address with no pair holds: no written byte. -/
def Memory.unlisted : Option Byte := none

/-- The canonical form: addresses strictly rising, and no entry equal to what an unlisted address holds (no byte is, so
the second half always holds). Equal memories are equal lists. -/
abbrev Memory.wf (m : Memory) : Prop :=
  List.Pairwise (fun p q => p.1 < q.1) m ∧ ∀ p ∈ m, some p.2 ≠ Memory.unlisted

/-- The written byte at an address. -/
def Memory.lookup : Memory → Nat → Option Byte
  | [], _ => Memory.unlisted
  | (b, v) :: t, a => if a = b then some v else Memory.lookup t a

/-- `mem[a] <- v`. -/
def Memory.write : Memory → Nat → Byte → Memory
  | [], a, v => [(a, v)]
  | (b, u) :: t, a, v =>
    if a < b then (a, v) :: (b, u) :: t
    else if a = b then (a, v) :: t
    else (b, u) :: Memory.write t a v

/-- `mem[a]`: the written byte, or the free value of a byte that nothing has written (R37, R311; log 6). -/
def Memory.byte (m : Memory) (a : Nat) : Byte := (Memory.lookup m a).getD (Config.unwrittenByte a)

/-- The bytes at `a .. a+n-1` in ascending address order (R54). -/
def Memory.bytes (m : Memory) (a : Nat) : Nat → List Byte
  | 0 => []
  | n + 1 => Memory.byte m a :: Memory.bytes m (a + 1) n

/-- The little-endian value of the `n` bytes at `a`: `mem[a] + 2^8 * mem[a+1] + …` (R55). -/
def Memory.loadLE (m : Memory) (a : Nat) : Nat → Nat
  | 0 => 0
  | n + 1 => (Memory.byte m a).toNat + 2 ^ 8 * Memory.loadLE m (a + 1) n

/-- `mem[a+k] <- v[8k+7 : 8k]` for `k` in `0 .. n-1` (R61). -/
def Memory.storeLE (m : Memory) (a : Nat) : Nat → Nat → Memory
  | 0, _ => m
  | n + 1, v => Memory.storeLE (Memory.write m a (BitVec.ofNat 8 v)) (a + 1) n (v / 2 ^ 8)

/-- Byte `k` of the sequence goes to `a + k` (R54). -/
def Memory.storeBytes (m : Memory) (a : Nat) : List Byte → Memory
  | [] => m
  | v :: vs => Memory.storeBytes (Memory.write m a v) (a + 1) vs

end Sys2Proof.Machine
end

