-- ==== Sys2Proof/Machine/Ops.lean ====
section
/-! DEFINITION. The named operations over registers, memory and the CPU state: `x[i]`, `MemRead`, `MemWrite`
(00_scope.md R14), taking an event or a fatal step error (60_exceptions.md R279) and returning from one (R283). -/

namespace Sys2Proof.Machine

/-! ## Registers -/

/-- `x[i]`: 0 for `i = 0` whatever slot 0 holds (R21, R123). -/
def Context.readReg (c : Context) (i : Reg) : Word :=
  if i = 0#5 then 0#32 else c.x[i.toNat]'i.isLt

/-- `x[i] <- v`: discarded for `i = 0` (R22). -/
def Context.writeReg (c : Context) (i : Reg) (v : Word) : Context :=
  if i = 0#5 then c else { c with x := c.x.set i.toNat v i.isLt }

/-- `x[i]` of the attached Context (R21). -/
def State.readReg (s : State) (i : Reg) : Word := s.ctx.readReg i

/-- `x[i] <- v` in the attached Context (R22). -/
def State.writeReg (s : State) (i : Reg) (v : Word) : State := { s with ctx := s.ctx.writeReg i v }

/-- `ipc`: during the execute phase `pc` is `ipc + 4` (R25, R113). -/
def State.ipc (s : State) : Word := s.ctx.pc - 4#32

/-! ## Memory -/

/-- `mem[a]` as a reader of the state sees it. -/
def State.byteAt (s : State) (a : Nat) : Byte := Memory.byte s.mem a

/-- `MemRead(a, n)`: none is MemoryViolation (R60). It changes no state. -/
def State.memRead (s : State) (a : Word) (n : Nat) : Option Word :=
  if s.cfg.admits a.toNat n then some (BitVec.ofNat 32 (Memory.loadLE s.mem a.toNat n)) else none

/-- The written range `[a, a+n)` contains the reservation address, as integers (R61). -/
abbrev covers (a n : Nat) (r : Word) : Prop := a ≤ r.toNat ∧ r.toNat < a + n

/-- The reservation after a write of `n` bytes at `a` (R61, R250). -/
def resvAfterWrite (resv : Option Word) (a n : Nat) : Option Word :=
  match resv with
  | none => none
  | some r => if covers a n r then none else some r

/-- `MemWrite(a, n, v)`: none is MemoryViolation, with nothing changed (R61). -/
def State.memWrite (s : State) (a : Word) (n : Nat) (v : Word) : Option State :=
  if s.cfg.admits a.toNat n then
    some ((s.setMem (Memory.storeLE s.mem a.toNat n v.toNat)).setResv (resvAfterWrite s.ctx.resv a.toNat n))
  else none

/-! ## Taking an exception -/

/-- Taking a fatal step error: the Context stays as it is, the CPU stays Running, the error is recorded and reported
(R117, R128, R279). -/
def State.raise (s : State) (st : FatalStatus) : Result :=
  .fault (.fatalStepError st (s.setReport (some (.fatal st))))

/-- Taking an event: the Context stays as it is, the event goes to the host, the Context is detached (R114, R116,
R279). -/
def State.notify (s : State) (e : Event) : State := s.detached.setReport (some (.event e))

/-! ## Returning from one -/

/-- `attach` / `switch_context`: the Context is installed as given, with a task id; nothing is checked or altered
(R123). Re-attaching is the only return from an event (R283). -/
def State.attach (s : State) (c : Context) (id : TaskId) : Result :=
  match s.cpuState with
  | .vacant => .next { s with cpuState := .running, taskId := some id, ctx := c, report := none }
  | .running => .refused .attachWhileRunning

/-- The host re-attaches the Context it was handed back: execution continues at its pc (R283). -/
def State.resume (s : State) (id : TaskId) : Result := s.attach s.ctx id

/-- `detach` requested by the host (R124). -/
def State.detach (s : State) : Result :=
  match s.cpuState with
  | .running => .next s.detached
  | .vacant => .refused .detachWhileVacant

/-! ## Templates that the instruction families share -/

/-- `x[rd] <- v`, pc left at `ipc + 4`, status Success (R130, R150, R170). -/
def regResult (rd : Reg) (v : Word) (s : State) : Result := .next (s.writeReg rd v)

/-- A load of `n` bytes at `ea`, extended, into `rd` (R190, R192 to R196). -/
def loadInto (rd : Reg) (ea : Word) (n : Nat) (extend : Word → Word) (s : State) : Result :=
  match s.memRead ea n with
  | none => s.raise .memoryViolation
  | some v => .next (s.writeReg rd (extend v))

/-- A store of the low `n` bytes of `v` at `ea` (R190, R198 to R200). -/
def storeTo (ea : Word) (n : Nat) (v : Word) (s : State) : Result :=
  match s.memWrite ea n v with
  | none => s.raise .memoryViolation
  | some t => .next t

/-- A conditional branch (R211): the target is written to pc when the condition holds; no check on it (R210). -/
def branchIf (cond : Bool) (target : Word) (s : State) : Result :=
  if cond then .next (s.setPc target) else .next s

/-- The AMO template (R243): read, write `f(t, s)` to the same bytes, `x[rd] <- t`. -/
def amoOn (f : Word → Word → Word) (rd : Reg) (ea v : Word) (s : State) : Result :=
  match s.memRead ea 4 with
  | none => s.raise .memoryViolation
  | some old =>
    match s.memWrite ea 4 (f old v) with
    | none => s.raise .memoryViolation
    | some t => .next (t.writeReg rd old)

end Sys2Proof.Machine
end

