-- ==== Sys2Proof/Machine/Cycle.lean ====
section
/-! DEFINITION. The five phases of a step, for any execute phase (40_step_cycle.md R111 to R117, R121, R128). -/

namespace Sys2Proof.Machine

/-- `Fetch(pc)`: the four bytes at pc as a word (R62, R112). -/
def State.fetch (s : State) : Option Word := s.memRead s.ctx.pc Config.ilenBytes

/-- The four bytes at pc in ascending address order, as the signature test compares them (R114). -/
def State.fetchedBytes (s : State) : List Byte := Memory.bytes s.mem s.ctx.pc.toNat Config.ilenBytes

/-- `IR <- w`, then `pc <- pc + 4` (R112, R113). -/
def State.fetched (s : State) (w : Word) : State := (s.setIr w).setPc (s.ctx.pc + 4#32)

/-- The four bytes at pc equal the trap signature (R114). -/
def State.atSignature (s : State) : Bool := s.fetchedBytes == s.cfg.trapSig

/-- Phases 4 and 5: decode, then execute (R115, R116). -/
def decodeAndRun (execute : Instr → State → Result) (w : Word) (t : State) : Result :=
  match decode t.cfg.mEnabled w with
  | none => t.raise .invalidInstruction
  | some i => execute i t

/-- The five phases of a step in their order: fetch, advance, signature, decode, execute (R111). -/
def shuttle (execute : Instr → State → Result) (s : State) : Result :=
  match s.fetch with
  | none => s.raise .memoryViolation
  | some w =>
    if s.atSignature then .next ((s.fetched w).notify .taskFinished)
    else decodeAndRun execute w (s.fetched w)

/-- The state records a fatal step error (R128). -/
def State.faulted (s : State) : Bool :=
  match s.report with
  | some (.fatal _) => true
  | some (.event _) => false
  | none => false

/-- The pc is a multiple of 4, or the machine does not ask (R57). -/
def State.pcAdmitted (s : State) : Bool :=
  s.cfg.pcAlignPolicy == .unchecked || s.ctx.pc.toNat % 4 == 0

/-- A step (R111): Vacant is a precondition violation (R121), a recorded fatal error is stuck (R128), an unaligned pc
under `refuse` has no meaning (R57), else the five phases. -/
def stepWith (execute : Instr → State → Result) (s : State) : Result :=
  match s.cpuState with
  | .vacant => .refused .stepWhileVacant
  | .running =>
    if s.faulted then .fault .stuckAfterFatal
    else if s.pcAdmitted then shuttle execute s
    else .refused .unalignedPc

/-! ## Placing an instruction for the next step (log 10) -/

/-- The pc from which the next step can fetch: the Context's own where the fetch is admitted, else `ENTRY`. -/
def State.placePc (s : State) : Word :=
  if s.cfg.admits s.ctx.pc.toNat Config.ilenBytes ∧ s.pcAdmitted then s.ctx.pc else s.cfg.entry

/-- The machine with a Context attached, no error recorded, and the given bytes at its pc. -/
def State.placed (s : State) (bytes : List Byte) : State :=
  { s with
    cpuState := .running
    taskId := some (s.taskId.getD 0)
    report := none
    ctx := { s.ctx with pc := s.placePc }
    mem := Memory.storeBytes s.mem s.placePc.toNat bytes }

end Sys2Proof.Machine
end

