-- ==== Sys2Proof/Machine/Operands.lean ====
section
/-! DEFINITION. Operand forms: immediates, effective addresses, shift amounts, extensions (30_encoding.md R83 to R87,
R103; 44_loads_stores.md R191). -/

namespace Sys2Proof.Machine

/-- An immediate sign-extended from its own width to 32 bits (R83, R84, R85, R87, R103). -/
def sextImm {n : Nat} (imm : BitVec n) : Word := imm.signExtend 32

/-- `imm_U = w[31:12] ‖ 0^12` (R86). -/
def upperImm (imm : BitVec 20) : Word := imm ++ 0#12

/-- Base register plus sign-extended immediate, modulo 2^32 (R191). -/
def effectiveAddress (s : State) (rs1 : Reg) (imm : BitVec 12) : Word := s.readReg rs1 + sextImm imm

/-- A target relative to the instruction's own address, modulo 2^32 (R210). -/
def relativeTarget {n : Nat} (s : State) (imm : BitVec n) : Word := s.ipc + sextImm imm

/-- The low five bits of a shift operand (R136). -/
def shiftAmount (v : Word) : Nat := (v.extractLsb' 0 5).toNat

/-- `sext_8` (R12, R192). -/
def sext8 (v : Word) : Word := (v.extractLsb' 0 8).signExtend 32

/-- `sext_16` (R12, R193). -/
def sext16 (v : Word) : Word := (v.extractLsb' 0 16).signExtend 32

/-- `zext_8` (R12, R195). -/
def zext8 (v : Word) : Word := (v.extractLsb' 0 8).setWidth 32

/-- `zext_16` (R12, R196). -/
def zext16 (v : Word) : Word := (v.extractLsb' 0 16).setWidth 32

end Sys2Proof.Machine
end

