-- ==== Sys2Proof/Machine/Flags.lean ====
section
/-! DEFINITION. The hardware has no flags (10_state.md R32): a comparison's result goes to a register or is consumed
inside a branch. These are the comparisons. -/

namespace Sys2Proof.Machine

/-- `signed(a) < signed(b)` (R139, R214). -/
def lessSigned (a b : Word) : Bool := a.toInt < b.toInt

/-- `a < b` as unsigned (R140, R216). -/
def lessUnsigned (a b : Word) : Bool := a.toNat < b.toNat

/-- 1 if the condition holds, else 0 (R139, R141). -/
def boolWord (c : Bool) : Word := if c then 1#32 else 0#32

end Sys2Proof.Machine
end

