-- ==== Sys2Proof/Machine/Alu.lean ====
section
/-! DEFINITION. The arithmetic of the instruction families (41_integer_register.md, 42_multiply_divide.md,
47_atomics.md): operands read as integers, exact results, narrowed at the end. -/

namespace Sys2Proof.Machine

/-- Shift left logical, zeros enter at bit 0 (R136, R175). -/
def shiftLeft (a : Word) (n : Nat) : Word := a <<< n

/-- Shift right logical, zeros enter at bit 31 (R137, R176). -/
def shiftRightLogical (a : Word) (n : Nat) : Word := a >>> n

/-- Shift right arithmetic, copies of bit 31 enter at the top (R138, R177). -/
def shiftRightArith (a : Word) (n : Nat) : Word := a.sshiftRight n

/-- Bits 63:32 of an exact product: `floor(p / 2^32) mod 2^32` (R152 to R154). -/
def highHalf (p : Int) : Word := BitVec.ofInt 32 (p / 2 ^ 32)

/-- MULH: signed by signed (R152). -/
def mulHighSigned (a b : Word) : Word := highHalf (a.toInt * b.toInt)

/-- MULHSU: the first operand signed, the second unsigned (R153). -/
def mulHighSignedUnsigned (a b : Word) : Word := highHalf (a.toInt * (b.toNat : Int))

/-- MULHU: unsigned by unsigned (R154). -/
def mulHighUnsigned (a b : Word) : Word := highHalf ((a.toNat : Int) * (b.toNat : Int))

/-- DIV (R155): all ones for divisor 0, the dividend on overflow, else the quotient rounded toward zero. -/
def divSigned (a b : Word) : Word :=
  if b.toInt = 0 then 0xFFFFFFFF#32
  else if a.toInt = -2 ^ 31 ∧ b.toInt = -1 then 0x80000000#32
  else BitVec.ofInt 32 (a.toInt.tdiv b.toInt)

/-- DIVU (R156): all ones for divisor 0. -/
def divUnsigned (a b : Word) : Word :=
  if b.toNat = 0 then 0xFFFFFFFF#32 else BitVec.ofNat 32 (a.toNat / b.toNat)

/-- REM (R157): the dividend for divisor 0, 0 on overflow, else the remainder with the sign of the dividend. -/
def remSigned (a b : Word) : Word :=
  if b.toInt = 0 then a
  else if a.toInt = -2 ^ 31 ∧ b.toInt = -1 then 0#32
  else BitVec.ofInt 32 (a.toInt - b.toInt * a.toInt.tdiv b.toInt)

/-- REMU (R158): the dividend for divisor 0. -/
def remUnsigned (a b : Word) : Word :=
  if b.toNat = 0 then a else BitVec.ofNat 32 (a.toNat % b.toNat)

/-- AMOMAX.W (R248): signed maximum. -/
def maxSigned (t s : Word) : Word := if s.toInt ≤ t.toInt then t else s

/-- AMOMIN.W (R249): signed minimum. -/
def minSigned (t s : Word) : Word := if t.toInt ≤ s.toInt then t else s

end Sys2Proof.Machine
end

