-- ==== Sys2Proof/Machine/Atomics.lean ====
section
/-! DEFINITION. Atomic instructions (47_atomics.md, templates R240, R243). aq and rl have no effect (20_memory.md R67). -/

namespace Sys2Proof.Machine

/-- LR.W: the load, then the reservation at the address exactly; the rs2 field is ignored (R241). -/
def execLrW (_aq _rl : Bool) (rd rs1 _rs2 : Reg) (s : State) : Result :=
  match s.memRead (s.readReg rs1) 4 with
  | none => s.raise .memoryViolation
  | some v => .next ((s.setResv (some (s.readReg rs1))).writeReg rd v)

/-- SC.W: succeeds when the reservation is the address exactly; either way the reservation ends (R242). -/
def execScW (_aq _rl : Bool) (rd rs1 rs2 : Reg) (s : State) : Result :=
  if s.ctx.resv = some (s.readReg rs1) then
    match s.memWrite (s.readReg rs1) 4 (s.readReg rs2) with
    | none => s.raise .memoryViolation
    | some t => .next ((t.setResv none).writeReg rd 0#32)
  else .next ((s.setResv none).writeReg rd 1#32)

/-- AMOSWAP.W (R243). -/
def execAmoswapW (_aq _rl : Bool) (rd rs1 rs2 : Reg) (s : State) : Result :=
  amoOn (fun _ v => v) rd (s.readReg rs1) (s.readReg rs2) s

/-- AMOADD.W (R244). -/
def execAmoaddW (_aq _rl : Bool) (rd rs1 rs2 : Reg) (s : State) : Result :=
  amoOn (fun t v => t + v) rd (s.readReg rs1) (s.readReg rs2) s

/-- AMOXOR.W (R247). -/
def execAmoxorW (_aq _rl : Bool) (rd rs1 rs2 : Reg) (s : State) : Result :=
  amoOn (fun t v => t ^^^ v) rd (s.readReg rs1) (s.readReg rs2) s

/-- AMOAND.W (R245). -/
def execAmoandW (_aq _rl : Bool) (rd rs1 rs2 : Reg) (s : State) : Result :=
  amoOn (fun t v => t &&& v) rd (s.readReg rs1) (s.readReg rs2) s

/-- AMOOR.W (R246). -/
def execAmoorW (_aq _rl : Bool) (rd rs1 rs2 : Reg) (s : State) : Result :=
  amoOn (fun t v => t ||| v) rd (s.readReg rs1) (s.readReg rs2) s

/-- AMOMIN.W (R249). -/
def execAmominW (_aq _rl : Bool) (rd rs1 rs2 : Reg) (s : State) : Result :=
  amoOn minSigned rd (s.readReg rs1) (s.readReg rs2) s

/-- AMOMAX.W (R248). -/
def execAmomaxW (_aq _rl : Bool) (rd rs1 rs2 : Reg) (s : State) : Result :=
  amoOn maxSigned rd (s.readReg rs1) (s.readReg rs2) s

end Sys2Proof.Machine
end

