-- ==== Sys2Proof/Machine/ControlTransfer.lean ====
section
/-! DEFINITION. Branches, upper-immediate instructions and jumps (45_control_transfer.md, templates R210, R211). -/

namespace Sys2Proof.Machine

/-- BEQ (R212). -/
def execBeq (rs1 rs2 : Reg) (imm : BitVec 13) (s : State) : Result :=
  branchIf (s.readReg rs1 == s.readReg rs2) (relativeTarget s imm) s

/-- BNE (R213). -/
def execBne (rs1 rs2 : Reg) (imm : BitVec 13) (s : State) : Result :=
  branchIf (s.readReg rs1 != s.readReg rs2) (relativeTarget s imm) s

/-- BLT (R214). -/
def execBlt (rs1 rs2 : Reg) (imm : BitVec 13) (s : State) : Result :=
  branchIf (lessSigned (s.readReg rs1) (s.readReg rs2)) (relativeTarget s imm) s

/-- BGE (R215). -/
def execBge (rs1 rs2 : Reg) (imm : BitVec 13) (s : State) : Result :=
  branchIf (!lessSigned (s.readReg rs1) (s.readReg rs2)) (relativeTarget s imm) s

/-- BLTU (R216). -/
def execBltu (rs1 rs2 : Reg) (imm : BitVec 13) (s : State) : Result :=
  branchIf (lessUnsigned (s.readReg rs1) (s.readReg rs2)) (relativeTarget s imm) s

/-- BGEU (R217). -/
def execBgeu (rs1 rs2 : Reg) (imm : BitVec 13) (s : State) : Result :=
  branchIf (!lessUnsigned (s.readReg rs1) (s.readReg rs2)) (relativeTarget s imm) s

/-- LUI (R218). -/
def execLui (rd : Reg) (imm : BitVec 20) (s : State) : Result :=
  regResult rd (upperImm imm) s

/-- AUIPC: relative to the address of the AUIPC itself (R219). -/
def execAuipc (rd : Reg) (imm : BitVec 20) (s : State) : Result :=
  regResult rd (s.ipc + upperImm imm) s

/-- JAL: the link is `ipc + 4`, the target `ipc + imm_J` (R220). -/
def execJal (rd : Reg) (imm : BitVec 21) (s : State) : Result :=
  .next ((s.writeReg rd (s.ipc + 4#32)).setPc (relativeTarget s imm))

/-- JALR: the target is computed from the old `x[rs1]`, bit 0 cleared; the link is `ipc + 4` (R221). -/
def execJalr (rd rs1 : Reg) (imm : BitVec 12) (s : State) : Result :=
  .next ((s.writeReg rd (s.ipc + 4#32)).setPc (effectiveAddress s rs1 imm &&& 0xFFFFFFFE#32))

end Sys2Proof.Machine
end

