-- ==== Sys2Proof/Machine/IntegerImmediate.lean ====
section
/-! DEFINITION. Register-immediate integer instructions (43_integer_immediate.md, template R170). -/

namespace Sys2Proof.Machine

/-- ADDI (R171). -/
def execAddi (rd rs1 : Reg) (imm : BitVec 12) (s : State) : Result :=
  regResult rd (s.readReg rs1 + sextImm imm) s

/-- XORI (R172). -/
def execXori (rd rs1 : Reg) (imm : BitVec 12) (s : State) : Result :=
  regResult rd (s.readReg rs1 ^^^ sextImm imm) s

/-- ORI (R173). -/
def execOri (rd rs1 : Reg) (imm : BitVec 12) (s : State) : Result :=
  regResult rd (s.readReg rs1 ||| sextImm imm) s

/-- ANDI (R174). -/
def execAndi (rd rs1 : Reg) (imm : BitVec 12) (s : State) : Result :=
  regResult rd (s.readReg rs1 &&& sextImm imm) s

/-- SLLI (R175). -/
def execSlli (rd rs1 : Reg) (shamt : BitVec 5) (s : State) : Result :=
  regResult rd (shiftLeft (s.readReg rs1) shamt.toNat) s

/-- SRLI (R176). -/
def execSrli (rd rs1 : Reg) (shamt : BitVec 5) (s : State) : Result :=
  regResult rd (shiftRightLogical (s.readReg rs1) shamt.toNat) s

/-- SRAI (R177). -/
def execSrai (rd rs1 : Reg) (shamt : BitVec 5) (s : State) : Result :=
  regResult rd (shiftRightArith (s.readReg rs1) shamt.toNat) s

/-- SLTI (R178). -/
def execSlti (rd rs1 : Reg) (imm : BitVec 12) (s : State) : Result :=
  regResult rd (boolWord (lessSigned (s.readReg rs1) (sextImm imm))) s

/-- SLTIU: the sign-extended immediate compared as unsigned (R179). -/
def execSltiu (rd rs1 : Reg) (imm : BitVec 12) (s : State) : Result :=
  regResult rd (boolWord (lessUnsigned (s.readReg rs1) (sextImm imm))) s

end Sys2Proof.Machine
end

