-- ==== Sys2Proof/Machine/IntegerRegister.lean ====
section
/-! DEFINITION. Register-register integer instructions (41_integer_register.md, template R130). -/

namespace Sys2Proof.Machine

/-- ADD (R131). -/
def execAdd (rd rs1 rs2 : Reg) (s : State) : Result :=
  regResult rd (s.readReg rs1 + s.readReg rs2) s

/-- SUB (R132). -/
def execSub (rd rs1 rs2 : Reg) (s : State) : Result :=
  regResult rd (s.readReg rs1 - s.readReg rs2) s

/-- XOR (R133). -/
def execXor (rd rs1 rs2 : Reg) (s : State) : Result :=
  regResult rd (s.readReg rs1 ^^^ s.readReg rs2) s

/-- OR (R134). -/
def execOr (rd rs1 rs2 : Reg) (s : State) : Result :=
  regResult rd (s.readReg rs1 ||| s.readReg rs2) s

/-- AND (R135). -/
def execAnd (rd rs1 rs2 : Reg) (s : State) : Result :=
  regResult rd (s.readReg rs1 &&& s.readReg rs2) s

/-- SLL (R136). -/
def execSll (rd rs1 rs2 : Reg) (s : State) : Result :=
  regResult rd (shiftLeft (s.readReg rs1) (shiftAmount (s.readReg rs2))) s

/-- SRL (R137). -/
def execSrl (rd rs1 rs2 : Reg) (s : State) : Result :=
  regResult rd (shiftRightLogical (s.readReg rs1) (shiftAmount (s.readReg rs2))) s

/-- SRA (R138). -/
def execSra (rd rs1 rs2 : Reg) (s : State) : Result :=
  regResult rd (shiftRightArith (s.readReg rs1) (shiftAmount (s.readReg rs2))) s

/-- SLT (R139). -/
def execSlt (rd rs1 rs2 : Reg) (s : State) : Result :=
  regResult rd (boolWord (lessSigned (s.readReg rs1) (s.readReg rs2))) s

/-- SLTU (R140). -/
def execSltu (rd rs1 rs2 : Reg) (s : State) : Result :=
  regResult rd (boolWord (lessUnsigned (s.readReg rs1) (s.readReg rs2))) s

end Sys2Proof.Machine
end

