-- ==== Sys2Proof/Machine/LoadsStores.lean ====
section
/-! DEFINITION. Load and store instructions (44_loads_stores.md, templates R190, R191). -/

namespace Sys2Proof.Machine

/-- LB (R192). -/
def execLb (rd rs1 : Reg) (imm : BitVec 12) (s : State) : Result :=
  loadInto rd (effectiveAddress s rs1 imm) 1 sext8 s

/-- LH (R193). -/
def execLh (rd rs1 : Reg) (imm : BitVec 12) (s : State) : Result :=
  loadInto rd (effectiveAddress s rs1 imm) 2 sext16 s

/-- LW (R194). -/
def execLw (rd rs1 : Reg) (imm : BitVec 12) (s : State) : Result :=
  loadInto rd (effectiveAddress s rs1 imm) 4 id s

/-- LBU (R195). -/
def execLbu (rd rs1 : Reg) (imm : BitVec 12) (s : State) : Result :=
  loadInto rd (effectiveAddress s rs1 imm) 1 zext8 s

/-- LHU (R196). -/
def execLhu (rd rs1 : Reg) (imm : BitVec 12) (s : State) : Result :=
  loadInto rd (effectiveAddress s rs1 imm) 2 zext16 s

/-- SB (R198). -/
def execSb (rs1 rs2 : Reg) (imm : BitVec 12) (s : State) : Result :=
  storeTo (effectiveAddress s rs1 imm) 1 (s.readReg rs2) s

/-- SH (R199). -/
def execSh (rs1 rs2 : Reg) (imm : BitVec 12) (s : State) : Result :=
  storeTo (effectiveAddress s rs1 imm) 2 (s.readReg rs2) s

/-- SW (R200). -/
def execSw (rs1 rs2 : Reg) (imm : BitVec 12) (s : State) : Result :=
  storeTo (effectiveAddress s rs1 imm) 4 (s.readReg rs2) s

end Sys2Proof.Machine
end

