-- ==== Sys2Proof/Machine/MultiplyDivide.lean ====
section
/-! DEFINITION. Multiply and divide instructions (42_multiply_divide.md, template R150). -/

namespace Sys2Proof.Machine

/-- MUL (R151). -/
def execMul (rd rs1 rs2 : Reg) (s : State) : Result :=
  regResult rd (s.readReg rs1 * s.readReg rs2) s

/-- MULH (R152). -/
def execMulh (rd rs1 rs2 : Reg) (s : State) : Result :=
  regResult rd (mulHighSigned (s.readReg rs1) (s.readReg rs2)) s

/-- MULHSU (R153). -/
def execMulhsu (rd rs1 rs2 : Reg) (s : State) : Result :=
  regResult rd (mulHighSignedUnsigned (s.readReg rs1) (s.readReg rs2)) s

/-- MULHU (R154). -/
def execMulhu (rd rs1 rs2 : Reg) (s : State) : Result :=
  regResult rd (mulHighUnsigned (s.readReg rs1) (s.readReg rs2)) s

/-- DIV (R155). -/
def execDiv (rd rs1 rs2 : Reg) (s : State) : Result :=
  regResult rd (divSigned (s.readReg rs1) (s.readReg rs2)) s

/-- DIVU (R156). -/
def execDivu (rd rs1 rs2 : Reg) (s : State) : Result :=
  regResult rd (divUnsigned (s.readReg rs1) (s.readReg rs2)) s

/-- REM (R157). -/
def execRem (rd rs1 rs2 : Reg) (s : State) : Result :=
  regResult rd (remSigned (s.readReg rs1) (s.readReg rs2)) s

/-- REMU (R158). -/
def execRemu (rd rs1 rs2 : Reg) (s : State) : Result :=
  regResult rd (remUnsigned (s.readReg rs1) (s.readReg rs2)) s

end Sys2Proof.Machine
end

