-- ==== Sys2Proof/Machine/System.lean ====
section
/-! DEFINITION. System instructions (46_system.md): each ends the step with a PauseTask event (40_step_cycle.md R116). rd and rs1 are
not compared by the decoder and have no effect (R96, R231). -/

namespace Sys2Proof.Machine

/-- ECALL (R231). -/
def execEcall (_rd _rs1 : Reg) (s : State) : Result :=
  .next (s.notify (.pauseTask .envCall))

/-- EBREAK (R232). -/
def execEbreak (_rd _rs1 : Reg) (s : State) : Result :=
  .next (s.notify (.pauseTask .envBreak))

end Sys2Proof.Machine
end

