-- ==== Sys2Proof/Machine/Step.lean ====
section
/-! DEFINITION. One step of the machine (40_step_cycle.md R111), and placing a word where the next step fetches. -/

namespace Sys2Proof.Machine

/-- One step. -/
def step (s : State) : Host.Outcome State Fault Refusal := stepWith exec s

/-- `s` with a Context attached and the word placed at its pc, so that the next step fetches and runs it (log 10). -/
def State.withFetchWord (s : State) (nbits w : Nat) : State := s.placed (tableWordBytes nbits w)

end Sys2Proof.Machine
end

