-- ==== Sys2Proof/Machine/HostOps.lean ====
section
/-! DEFINITION. The host's operations between steps: memory (20_memory.md R54, R63 to R65) and the registers of a
detached Context (10_state.md R22, R23). Host addresses are natural numbers (log 17). No operation here changes the
reservation (R65). -/

namespace Sys2Proof.Machine

/-- Errors of the host interface that are no instruction's outcome (R274). -/
inductive HostError where
  | outOfRange
  | resourceExhausted
  deriving DecidableEq, Repr

/-! ## Memory -/

/-- `read(addr) -> byte | OutOfRange` (R54). -/
def State.hostRead (s : State) (a : Nat) : Except HostError Byte :=
  if s.cfg.admits a 1 then .ok (s.byteAt a) else .error .outOfRange

/-- `read_n(addr, len) -> bytes | OutOfRange`: byte `k` of the answer is at `addr + k` (R54). -/
def State.hostReadN (s : State) (a len : Nat) : Except HostError (List Byte) :=
  if s.cfg.admits a len then .ok (Memory.bytes s.mem a len) else .error .outOfRange

/-- `write_n(addr, bytes) -> Ok | OutOfRange` (R54): the whole range checked before any byte is written (R53). -/
def State.hostWriteN (s : State) (a : Nat) (bytes : List Byte) : Except HostError State :=
  if s.cfg.admits a bytes.length then .ok (s.setMem (Memory.storeBytes s.mem a bytes)) else .error .outOfRange

/-- `write(addr, byte) -> Ok | OutOfRange` (R54). -/
def State.hostWrite (s : State) (a : Nat) (v : Byte) : Except HostError State := s.hostWriteN a [v]

/-- `read_typed<T>(addr) -> T | OutOfRange` for a T of `n` bytes, little-endian (R54, R55). -/
def State.hostReadTyped (s : State) (a n : Nat) : Except HostError Nat :=
  if s.cfg.admits a n then .ok (Memory.loadLE s.mem a n) else .error .outOfRange

/-- `write_typed<T>(addr, T) -> Ok | OutOfRange` for a T of `n` bytes, little-endian (R54, R55). -/
def State.hostWriteTyped (s : State) (a n v : Nat) : Except HostError State :=
  if s.cfg.admits a n then .ok (s.setMem (Memory.storeLE s.mem a n v)) else .error .outOfRange

/-- `fill(addr, len, value)` (R64). -/
def State.hostFill (s : State) (a len : Nat) (v : Byte) : Except HostError State :=
  s.hostWriteN a (List.replicate len v)

/-- `generate(addr, len, generator)`: the generator's values in ascending address order (R64, log 18). -/
def State.hostGenerate (s : State) (a len : Nat) (generator : Nat → Byte) : Except HostError State :=
  s.hostWriteN a ((List.range len).map generator)

/-- The free bytes that a use of `randomize_tail` draws for `len` addresses from `a` (R63, U8, log 7). -/
def tailBytes (draw a len : Nat) : List Byte := (List.range len).map fun k => Config.tailByte draw (a + k)

/-- `load_program(bytes, start_addr, region_size, randomize_tail)` (R63): the capacity check first, then the region's
bounds as a whole (log 11), then the bytes, then, if asked, free bytes in the rest of the region. -/
def State.loadProgram (s : State) (bytes : List Byte) (start region : Nat) (randomizeTail : Bool) :
    Except HostError State :=
  if region < bytes.length then .error .resourceExhausted
  else if s.cfg.admits start region then
    if randomizeTail then
      .ok { s with
        mem := Memory.storeBytes s.mem start
          (bytes ++ tailBytes s.draws (start + bytes.length) (region - bytes.length))
        draws := s.draws + 1 }
    else .ok (s.setMem (Memory.storeBytes s.mem start bytes))
  else .error .outOfRange

/-! ## Registers of a detached Context -/

/-- The symbolic register names (R23). There is no `fp`. -/
inductive AbiName where
  | zero | ra | sp | gp | tp
  | t0 | t1 | t2 | t3 | t4 | t5 | t6
  | s0 | s1 | s2 | s3 | s4 | s5 | s6 | s7 | s8 | s9 | s10 | s11
  | a0 | a1 | a2 | a3 | a4 | a5 | a6 | a7
  deriving DecidableEq, Repr

/-- The index of each name (R23). -/
def AbiName.index : AbiName → Reg
  | .zero => 0 | .ra => 1 | .sp => 2 | .gp => 3 | .tp => 4
  | .t0 => 5 | .t1 => 6 | .t2 => 7
  | .s0 => 8 | .s1 => 9
  | .a0 => 10 | .a1 => 11 | .a2 => 12 | .a3 => 13 | .a4 => 14 | .a5 => 15 | .a6 => 16 | .a7 => 17
  | .s2 => 18 | .s3 => 19 | .s4 => 20 | .s5 => 21 | .s6 => 22 | .s7 => 23 | .s8 => 24 | .s9 => 25
  | .s10 => 26 | .s11 => 27
  | .t3 => 28 | .t4 => 29 | .t5 => 30 | .t6 => 31

/-- `read(name)` at the host interface (R21, R23). -/
def Context.hostReadName (c : Context) (n : AbiName) : Word := c.readReg n.index

/-- `write(index, Word)` at the host interface: the Context and the previous value, which is 0 for register 0
(R22). -/
def Context.hostWriteReg (c : Context) (i : Reg) (v : Word) : Context × Word := (c.writeReg i v, c.readReg i)

/-- `write(name, Word)` at the host interface (R22, R23). -/
def Context.hostWriteName (c : Context) (n : AbiName) (v : Word) : Context × Word := c.hostWriteReg n.index v

end Sys2Proof.Machine
end

