-- ==== Sys2Proof/Machine/Shuttle.lean ====
section
/-! DEFINITION. The outcome of a step as the spec names it, and `execute_shuttle(N)` (40_step_cycle.md R118, R122;
60_exceptions.md R270, R271, R276). -/

namespace Sys2Proof.Machine

/-- The event of a report, if it is one: the fatal step errors are not events (R276). -/
def Report.event? : Report → Option Event
  | .event e => some e
  | .fatal _ => none

/-- The code of a status: its ordinal (R271). -/
def ExecutionStatus.code : ExecutionStatus → Nat
  | .success => 0
  | .memoryViolation => 1
  | .invalidInstruction => 2
  | .envCall => 3
  | .envBreak => 4
  | .unknown => 5

/-- The step outcome of a status (R116, R271). -/
def ExecutionStatus.outcome : ExecutionStatus → StepOutcome
  | .success => .continue
  | .memoryViolation => .fatal .memoryViolation
  | .invalidInstruction => .fatal .invalidInstruction
  | .envCall => .paused .envCall
  | .envBreak => .paused .envBreak
  | .unknown => .fatal .unknown

/-- The step outcome that a report stands for; nothing reported is `Continue` (R117). -/
def outcomeOfReport : Option Report → StepOutcome
  | none => .continue
  | some (.event .taskFinished) => .finished
  | some (.event (.pauseTask c)) => .paused c
  | some (.fatal st) => .fatal st

/-- The event that the CPU emits at an outcome (R111, R116, R276). -/
def StepOutcome.event? : StepOutcome → Option Event
  | .continue => none
  | .finished => some .taskFinished
  | .paused c => some (.pauseTask c)
  | .fatal _ => none

/-- The outcome of a step that the machine answered with `r`; none where no step exists (R121, R122, R128). -/
def outcomeOf : Result → Option StepOutcome
  | .next t => some (outcomeOfReport t.report)
  | .fault (.fatalStepError st _) => some (.fatal st)
  | .fault .stuckAfterFatal => none
  | .refused _ => none

/-- The answer to a request of N steps: the machine, the outcome of the last step, the number of steps performed
(R122). -/
structure Request where
  result : Result
  last : Option StepOutcome
  steps : Nat

/-- Up to `n` steps: step after step while each ends with `Continue` (R118). -/
def runSteps : Nat → State → Option StepOutcome → Nat → Request
  | 0, s, last, done => ⟨.next s, last, done⟩
  | n + 1, s, last, done =>
    match step s with
    | .next t =>
      if t.report = none then runSteps n t (some .continue) (done + 1)
      else ⟨.next t, some (outcomeOfReport t.report), done + 1⟩
    | .fault (.fatalStepError st left) => ⟨.fault (.fatalStepError st left), some (.fatal st), done + 1⟩
    | .fault .stuckAfterFatal => ⟨.fault .stuckAfterFatal, last, done⟩
    | .refused r => ⟨.refused r, last, done⟩

/-- `execute_shuttle(N)` (R118): a precondition violation on a Vacant CPU, whatever N (R121). -/
def executeShuttle (n : Nat) (s : State) : Request :=
  match s.cpuState with
  | .vacant => ⟨.refused .stepWhileVacant, none, 0⟩
  | .running => runSteps n s none 0

end Sys2Proof.Machine
end

