-- ==== Sys2Proof/Safety.lean ====
section
/-! DEFINITION. The terms that claims use: the invariant of the machine, and what an instruction leaves unchanged. -/

namespace Sys2Proof.Machine

/-! ## Values in memory -/

/-- The word at `a`, little-endian: `mem[a] + 2^8 * mem[a+1] + 2^16 * mem[a+2] + 2^24 * mem[a+3]` (R55). -/
def State.wordAt (s : State) (a : Nat) : Word :=
  s.byteAt (a + 3) ++ s.byteAt (a + 2) ++ s.byteAt (a + 1) ++ s.byteAt a

/-- The halfword at `a`, little-endian (R55). -/
def State.halfAt (s : State) (a : Nat) : BitVec 16 := s.byteAt (a + 1) ++ s.byteAt a

/-! ## Invariants -/

/-- Every written byte lies in the window (R31). -/
abbrev State.memInWindow (s : State) : Prop := ∀ p ∈ s.mem, s.cfg.admits p.1 1

/-- `task_id` is set iff the CPU is not Vacant (R29). -/
abbrev State.taskMatches (s : State) : Prop := s.taskId.isSome = true ↔ s.cpuState = .running

/-- A Running CPU has reported nothing, or a fatal step error (R117): an event detaches. -/
abbrev State.reportMatches (s : State) : Prop := s.cpuState = .running → s.report = none ∨ s.faulted = true

/-- The reservation is an address whose word lies in the window: LR.W sets no other (R241). -/
abbrev State.resvInWindow (s : State) : Prop := ∀ r, s.ctx.resv = some r → s.cfg.admits r.toNat 4

/-- The invariant of the machine. -/
structure State.Inv (s : State) : Prop where
  /-- R9's constraint on the parameters. -/
  cfgOk : s.cfg.ok
  /-- Memory is in its canonical form. -/
  memWf : Memory.wf s.mem
  /-- R31. -/
  memIn : s.memInWindow
  /-- R29. -/
  task : s.taskMatches
  /-- R117. -/
  reported : s.reportMatches

/-! ## Frames -/

/-- Every byte of memory reads the same in both states. -/
def SameMemory (s t : State) : Prop := ∀ a, t.byteAt a = s.byteAt a

/-- Every byte outside `[a, a+n)` reads the same in both states. -/
def SameMemoryOutside (a n : Nat) (s t : State) : Prop := ∀ b, (b < a ∨ a + n ≤ b) → t.byteAt b = s.byteAt b

/-- Every register reads the same in both states. -/
def SameRegs (s t : State) : Prop := ∀ r, t.readReg r = s.readReg r

/-- Register `rd` reads `v` (0 if `rd` is register 0, R22) and every other register reads the same. -/
def OnlyReg (rd : Reg) (v : Word) (s t : State) : Prop :=
  ∀ r, t.readReg r = if r = 0#5 then 0#32 else if r = rd then v else s.readReg r

/-- IR, the CPU state, the task, the report, the parameters and the draws are the same in both states. -/
structure SameControl (s t : State) : Prop where
  ir : t.ctx.ir = s.ctx.ir
  cpuState : t.cpuState = s.cpuState
  taskId : t.taskId = s.taskId
  report : t.report = s.report
  cfg : t.cfg = s.cfg
  draws : t.draws = s.draws

/-- The effect of an instruction that only writes `v` to `rd`: pc, the reservation, memory and the rest unchanged. -/
structure WritesReg (rd : Reg) (v : Word) (s t : State) : Prop where
  regs : OnlyReg rd v s t
  pc : t.ctx.pc = s.ctx.pc
  resv : t.ctx.resv = s.ctx.resv
  mem : SameMemory s t
  control : SameControl s t

/-- The effect of an instruction that writes `target` to pc and `v` to `rd`, and nothing else. -/
structure JumpsTo (target : Word) (rd : Reg) (v : Word) (s t : State) : Prop where
  regs : OnlyReg rd v s t
  pc : t.ctx.pc = target
  resv : t.ctx.resv = s.ctx.resv
  mem : SameMemory s t
  control : SameControl s t

/-- The effect of an instruction that writes `target` to pc and nothing else. -/
structure GoesTo (target : Word) (s t : State) : Prop where
  regs : SameRegs s t
  pc : t.ctx.pc = target
  resv : t.ctx.resv = s.ctx.resv
  mem : SameMemory s t
  control : SameControl s t

/-- Byte `k` of the `n` bytes at `a` is bits `8k+7` down to `8k` of `v` (R61). -/
def StoredBytes (a n : Nat) (v : Word) (t : State) : Prop :=
  ∀ k, k < n → t.byteAt (a + k) = v.extractLsb' (8 * k) 8

/-- A write of `n` bytes at `a` ends the reservation exactly when its address lies in the written range (R61, R250). -/
def ResvAfterStore (a n : Nat) (s t : State) : Prop :=
  ∀ r, t.ctx.resv = some r ↔ s.ctx.resv = some r ∧ ¬(a ≤ r.toNat ∧ r.toNat < a + n)

/-- The effect of an instruction that stores the low `n` bytes of `v` at `a` and writes no register. -/
structure StoresAt (a n : Nat) (v : Word) (s t : State) : Prop where
  stored : StoredBytes a n v t
  mem : SameMemoryOutside a n s t
  regs : SameRegs s t
  pc : t.ctx.pc = s.ctx.pc
  resv : ResvAfterStore a n s t
  control : SameControl s t

/-- The effect of an instruction that stores the word `new` at `a` and writes `old` to `rd`. -/
structure SwapsAt (a : Nat) (new : Word) (rd : Reg) (old : Word) (s t : State) : Prop where
  stored : StoredBytes a 4 new t
  mem : SameMemoryOutside a 4 s t
  regs : OnlyReg rd old s t
  pc : t.ctx.pc = s.ctx.pc
  resv : ResvAfterStore a 4 s t
  control : SameControl s t

/-- The effect of an instruction that pauses the task: the event with its cause, the Context handed back as it is, the
CPU Vacant, memory unchanged (R116, R124, R279). -/
structure Pauses (cause : PauseCause) (s t : State) : Prop where
  ctx : t.ctx = s.ctx
  mem : t.mem = s.mem
  cfg : t.cfg = s.cfg
  draws : t.draws = s.draws
  cpuState : t.cpuState = .vacant
  taskId : t.taskId = none
  report : t.report = some (.event (.pauseTask cause))

/-- The instruction completes from `s` in a next state with the given property. -/
def Completes (i : Instr) (s : State) (post : State → Prop) : Prop := ∃ t, exec i s = .next t ∧ post t

/-- The instruction, or the step, ends in a fatal step error that leaves the state as it is but for the record of the
error: nothing of the Context or of memory changed (R117, R190). -/
def FatalLeaving (r : Result) (st : FatalStatus) (s : State) : Prop :=
  r = .fault (.fatalStepError st (s.setReport (some (.fatal st))))

/-- The instructions that can store to memory: SB, SH, SW, SC.W and the AMOs (R61). -/
def storesToMemory : Instr → Bool
  | .sb .. | .sh .. | .sw .. | .scW .. | .amoswapW .. | .amoaddW .. | .amoxorW .. | .amoandW .. | .amoorW ..
  | .amominW .. | .amomaxW .. => true
  | .add .. | .sub .. | .xor .. | .or .. | .and .. | .sll .. | .srl .. | .sra .. | .slt .. | .sltu .. => false
  | .mul .. | .mulh .. | .mulhsu .. | .mulhu .. | .div .. | .divu .. | .rem .. | .remu .. => false
  | .addi .. | .slti .. | .sltiu .. | .xori .. | .ori .. | .andi .. | .slli .. | .srli .. | .srai .. => false
  | .lb .. | .lh .. | .lw .. | .lbu .. | .lhu .. => false
  | .beq .. | .bne .. | .blt .. | .bge .. | .bltu .. | .bgeu .. => false
  | .lui .. | .auipc .. | .jal .. | .jalr .. | .ecall .. | .ebreak .. | .lrW .. => false

/-- The instructions that may write pc themselves: the branches, JAL and JALR (R25, R113). -/
def transfersControl : Instr → Bool
  | .beq .. | .bne .. | .blt .. | .bge .. | .bltu .. | .bgeu .. | .jal .. | .jalr .. => true
  | .add .. | .sub .. | .xor .. | .or .. | .and .. | .sll .. | .srl .. | .sra .. | .slt .. | .sltu .. => false
  | .mul .. | .mulh .. | .mulhsu .. | .mulhu .. | .div .. | .divu .. | .rem .. | .remu .. => false
  | .addi .. | .slti .. | .sltiu .. | .xori .. | .ori .. | .andi .. | .slli .. | .srli .. | .srai .. => false
  | .lb .. | .lh .. | .lw .. | .lbu .. | .lhu .. | .sb .. | .sh .. | .sw .. => false
  | .lui .. | .auipc .. | .ecall .. | .ebreak .. => false
  | .lrW .. | .scW .. | .amoswapW .. | .amoaddW .. | .amoxorW .. | .amoandW .. | .amoorW .. | .amominW ..
  | .amomaxW .. => false

/-- The state after phases 1 and 2 of a step: IR holds the fetched word, pc is 4 further (R112, R113). -/
def State.afterFetch (s : State) : State :=
  { s with ctx := { s.ctx with ir := s.wordAt s.ctx.pc.toNat, pc := s.ctx.pc + 4#32 } }

/-- The preconditions of a step: the CPU is Running, no fatal error is recorded, the pc's alignment is admitted (R121,
R128, R57). -/
structure State.Ready (s : State) : Prop where
  running : s.cpuState = .running
  clean : s.report = none
  aligned : s.cfg.pcAlignPolicy = .unchecked ∨ s.ctx.pc.toNat % 4 = 0

end Sys2Proof.Machine
end

