-- ==== Sys2Proof/Certificates/Slice0/Obligations.lean ====
section
/-! DEFINITION. The statements for the provers. -/

open Sys2Proof Sys2Proof.Machine

/-- O1. No bit of an encoding is dropped on the way from an instruction to its word and back (30_encoding.md section 3). -/
def Obligations.DecodeOfEncodeIsTheInstruction : Prop :=
  ∀ (m : Bool) (i : Instr), i.wf = true → (i.isMultiply = true → m = true) → decode m (encode i) = some i

/-- O2. Each word that decodes has one meaning, and the decoded instruction carries every bit of it (30_encoding.md
section 3; the fields kept without effect are the model's choice, log 15). -/
def Obligations.EncodeOfDecodeIsTheWord : Prop :=
  ∀ (m : Bool) (w : Word) (i : Instr), decode m w = some i →
    encode i = w ∧ i.wf = true ∧ (i.isMultiply = true → m = true)

/-- O3. Words of 95_test_vectors.md Part 2, with the fields listed there. -/
def Obligations.WordsWrittenOutDecode : Prop :=
  decode true 0x003100B3#32 = some (.add 1#5 2#5 3#5) ∧
    decode true 0x407302B3#32 = some (.sub 5#5 6#5 7#5) ∧
    decode true 0x02C5C533#32 = some (.div 10#5 11#5 12#5) ∧
    decode true 0xFFF10093#32 = some (.addi 1#5 2#5 0xFFF#12) ∧
    decode true 0x40415093#32 = some (.srai 1#5 2#5 4#5) ∧
    decode true 0x00812283#32 = some (.lw 5#5 2#5 8#12) ∧
    decode true 0xFE512C23#32 = some (.sw 2#5 5#5 0xFF8#12) ∧
    decode true 0xFE209EE3#32 = some (.bne 1#5 2#5 0x1FFC#13) ∧
    decode true 0x123452B7#32 = some (.lui 5#5 0x12345#20) ∧
    decode true 0xFFFFF297#32 = some (.auipc 5#5 0xFFFFF#20) ∧
    decode true 0x800000EF#32 = some (.jal 1#5 0x100000#21) ∧
    decode true 0xFFD280E7#32 = some (.jalr 1#5 5#5 0xFFD#12) ∧
    decode true 0x00000073#32 = some (.ecall 0#5 0#5) ∧
    decode true 0x00100FF3#32 = some (.ebreak 31#5 0#5) ∧
    decode true 0x1605252F#32 = some (.lrW true true 10#5 10#5 0#5) ∧
    decode true 0x1875232F#32 = some (.scW false false 6#5 10#5 7#5) ∧
    decode true 0xA06522AF#32 = some (.amomaxW false false 5#5 10#5 6#5) ∧
    decode true 0x00000000#32 = none ∧ decode true 0xFFFFFFFF#32 = none ∧ decode true 0x0FF0000F#32 = none ∧
    decode true 0x20005013#32 = none ∧ decode true 0xC000202F#32 = none

/-- O4. R89 (selector values supplied by the spec from general knowledge, GK2; log 16). -/
def Obligations.RegisterRowsDecode : Prop :=
  ∀ (m : Bool) (w : Word),
    (w &&& 0xFE00707F#32 = 0x00000033#32 →
      decode m w = some (.add (w.extractLsb' 7 5) (w.extractLsb' 15 5) (w.extractLsb' 20 5))) ∧
    (w &&& 0xFE00707F#32 = 0x40000033#32 →
      decode m w = some (.sub (w.extractLsb' 7 5) (w.extractLsb' 15 5) (w.extractLsb' 20 5))) ∧
    (w &&& 0xFE00707F#32 = 0x00001033#32 →
      decode m w = some (.sll (w.extractLsb' 7 5) (w.extractLsb' 15 5) (w.extractLsb' 20 5))) ∧
    (w &&& 0xFE00707F#32 = 0x00002033#32 →
      decode m w = some (.slt (w.extractLsb' 7 5) (w.extractLsb' 15 5) (w.extractLsb' 20 5))) ∧
    (w &&& 0xFE00707F#32 = 0x00003033#32 →
      decode m w = some (.sltu (w.extractLsb' 7 5) (w.extractLsb' 15 5) (w.extractLsb' 20 5))) ∧
    (w &&& 0xFE00707F#32 = 0x00004033#32 →
      decode m w = some (.xor (w.extractLsb' 7 5) (w.extractLsb' 15 5) (w.extractLsb' 20 5))) ∧
    (w &&& 0xFE00707F#32 = 0x00005033#32 →
      decode m w = some (.srl (w.extractLsb' 7 5) (w.extractLsb' 15 5) (w.extractLsb' 20 5))) ∧
    (w &&& 0xFE00707F#32 = 0x40005033#32 →
      decode m w = some (.sra (w.extractLsb' 7 5) (w.extractLsb' 15 5) (w.extractLsb' 20 5))) ∧
    (w &&& 0xFE00707F#32 = 0x00006033#32 →
      decode m w = some (.or (w.extractLsb' 7 5) (w.extractLsb' 15 5) (w.extractLsb' 20 5))) ∧
    (w &&& 0xFE00707F#32 = 0x00007033#32 →
      decode m w = some (.and (w.extractLsb' 7 5) (w.extractLsb' 15 5) (w.extractLsb' 20 5))) ∧
    (w.extractLsb' 0 7 = 0b0110011#7 → w.extractLsb' 25 7 ≠ 1#7 →
      (∀ b ∈ [0x00000033#32, 0x40000033#32, 0x00001033#32, 0x00002033#32, 0x00003033#32, 0x00004033#32,
        0x00005033#32, 0x40005033#32, 0x00006033#32, 0x00007033#32],
        w &&& 0xFE00707F#32 ≠ b) →
      decode m w = none)

/-- O5. R90 (funct3 values supplied by the spec from general knowledge, GK2; log 16). -/
def Obligations.MultiplyRowsDecodeOnlyWhenRegistered : Prop :=
  ∀ w : Word,
    (w &&& 0xFE00707F#32 = 0x02000033#32 →
      decode true w = some (.mul (w.extractLsb' 7 5) (w.extractLsb' 15 5) (w.extractLsb' 20 5))) ∧
    (w &&& 0xFE00707F#32 = 0x02001033#32 →
      decode true w = some (.mulh (w.extractLsb' 7 5) (w.extractLsb' 15 5) (w.extractLsb' 20 5))) ∧
    (w &&& 0xFE00707F#32 = 0x02002033#32 →
      decode true w = some (.mulhsu (w.extractLsb' 7 5) (w.extractLsb' 15 5) (w.extractLsb' 20 5))) ∧
    (w &&& 0xFE00707F#32 = 0x02003033#32 →
      decode true w = some (.mulhu (w.extractLsb' 7 5) (w.extractLsb' 15 5) (w.extractLsb' 20 5))) ∧
    (w &&& 0xFE00707F#32 = 0x02004033#32 →
      decode true w = some (.div (w.extractLsb' 7 5) (w.extractLsb' 15 5) (w.extractLsb' 20 5))) ∧
    (w &&& 0xFE00707F#32 = 0x02005033#32 →
      decode true w = some (.divu (w.extractLsb' 7 5) (w.extractLsb' 15 5) (w.extractLsb' 20 5))) ∧
    (w &&& 0xFE00707F#32 = 0x02006033#32 →
      decode true w = some (.rem (w.extractLsb' 7 5) (w.extractLsb' 15 5) (w.extractLsb' 20 5))) ∧
    (w &&& 0xFE00707F#32 = 0x02007033#32 →
      decode true w = some (.remu (w.extractLsb' 7 5) (w.extractLsb' 15 5) (w.extractLsb' 20 5))) ∧
    (w.extractLsb' 0 7 = 0b0110011#7 → w.extractLsb' 25 7 = 1#7 → decode false w = none)

/-- O6. R91 (selector values supplied by the spec from general knowledge, GK2; log 16). -/
def Obligations.ImmediateRowsDecode : Prop :=
  ∀ (m : Bool) (w : Word),
    (w &&& 0x0000707F#32 = 0x00000013#32 →
      decode m w = some (.addi (w.extractLsb' 7 5) (w.extractLsb' 15 5) (w.extractLsb' 20 12))) ∧
    (w &&& 0xFE00707F#32 = 0x00001013#32 →
      decode m w = some (.slli (w.extractLsb' 7 5) (w.extractLsb' 15 5) (w.extractLsb' 20 5))) ∧
    (w &&& 0x0000707F#32 = 0x00002013#32 →
      decode m w = some (.slti (w.extractLsb' 7 5) (w.extractLsb' 15 5) (w.extractLsb' 20 12))) ∧
    (w &&& 0x0000707F#32 = 0x00003013#32 →
      decode m w = some (.sltiu (w.extractLsb' 7 5) (w.extractLsb' 15 5) (w.extractLsb' 20 12))) ∧
    (w &&& 0x0000707F#32 = 0x00004013#32 →
      decode m w = some (.xori (w.extractLsb' 7 5) (w.extractLsb' 15 5) (w.extractLsb' 20 12))) ∧
    (w &&& 0xFE00707F#32 = 0x00005013#32 →
      decode m w = some (.srli (w.extractLsb' 7 5) (w.extractLsb' 15 5) (w.extractLsb' 20 5))) ∧
    (w &&& 0xFE00707F#32 = 0x40005013#32 →
      decode m w = some (.srai (w.extractLsb' 7 5) (w.extractLsb' 15 5) (w.extractLsb' 20 5))) ∧
    (w &&& 0x0000707F#32 = 0x00006013#32 →
      decode m w = some (.ori (w.extractLsb' 7 5) (w.extractLsb' 15 5) (w.extractLsb' 20 12))) ∧
    (w &&& 0x0000707F#32 = 0x00007013#32 →
      decode m w = some (.andi (w.extractLsb' 7 5) (w.extractLsb' 15 5) (w.extractLsb' 20 12))) ∧
    (w.extractLsb' 0 7 = 0b0010011#7 → w.extractLsb' 12 3 = 0b001#3 → w.extractLsb' 25 7 ≠ 0#7 → decode m w = none) ∧
    (w.extractLsb' 0 7 = 0b0010011#7 → w.extractLsb' 12 3 = 0b101#3 → w.extractLsb' 25 7 ≠ 0#7 →
      w.extractLsb' 25 7 ≠ 0b0100000#7 → decode m w = none)

/-- O7. R92, R93 (funct3 values supplied by the spec from general knowledge, GK2; log 16). -/
def Obligations.LoadAndStoreRowsDecode : Prop :=
  ∀ (m : Bool) (w : Word),
    (w &&& 0x0000707F#32 = 0x00000003#32 →
      decode m w = some (.lb (w.extractLsb' 7 5) (w.extractLsb' 15 5) (w.extractLsb' 20 12))) ∧
    (w &&& 0x0000707F#32 = 0x00001003#32 →
      decode m w = some (.lh (w.extractLsb' 7 5) (w.extractLsb' 15 5) (w.extractLsb' 20 12))) ∧
    (w &&& 0x0000707F#32 = 0x00002003#32 →
      decode m w = some (.lw (w.extractLsb' 7 5) (w.extractLsb' 15 5) (w.extractLsb' 20 12))) ∧
    (w &&& 0x0000707F#32 = 0x00004003#32 →
      decode m w = some (.lbu (w.extractLsb' 7 5) (w.extractLsb' 15 5) (w.extractLsb' 20 12))) ∧
    (w &&& 0x0000707F#32 = 0x00005003#32 →
      decode m w = some (.lhu (w.extractLsb' 7 5) (w.extractLsb' 15 5) (w.extractLsb' 20 12))) ∧
    (w &&& 0x0000707F#32 = 0x00000023#32 →
      decode m w = some (.sb (w.extractLsb' 15 5) (w.extractLsb' 20 5) (w.extractLsb' 25 7 ++ w.extractLsb' 7 5))) ∧
    (w &&& 0x0000707F#32 = 0x00001023#32 →
      decode m w = some (.sh (w.extractLsb' 15 5) (w.extractLsb' 20 5) (w.extractLsb' 25 7 ++ w.extractLsb' 7 5))) ∧
    (w &&& 0x0000707F#32 = 0x00002023#32 →
      decode m w = some (.sw (w.extractLsb' 15 5) (w.extractLsb' 20 5) (w.extractLsb' 25 7 ++ w.extractLsb' 7 5))) ∧
    (w.extractLsb' 0 7 = 0b0000011#7 → w.extractLsb' 12 3 ∈ [0b011#3, 0b110#3, 0b111#3] → decode m w = none) ∧
    (w.extractLsb' 0 7 = 0b0100011#7 → w.extractLsb' 12 3 ∈ [0b011#3, 0b100#3, 0b101#3, 0b110#3, 0b111#3] →
      decode m w = none)

/-- O8. R94 (funct3 values supplied by the spec from general knowledge, GK2; log 16). What `fieldImmB` is:
ImmediatesFollowTheFormatTable. -/
def Obligations.BranchRowsDecode : Prop :=
  ∀ (m : Bool) (w : Word),
    (w &&& 0x0000707F#32 = 0x00000063#32 →
      decode m w = some (.beq (w.extractLsb' 15 5) (w.extractLsb' 20 5) (fieldImmB w))) ∧
    (w &&& 0x0000707F#32 = 0x00001063#32 →
      decode m w = some (.bne (w.extractLsb' 15 5) (w.extractLsb' 20 5) (fieldImmB w))) ∧
    (w &&& 0x0000707F#32 = 0x00004063#32 →
      decode m w = some (.blt (w.extractLsb' 15 5) (w.extractLsb' 20 5) (fieldImmB w))) ∧
    (w &&& 0x0000707F#32 = 0x00005063#32 →
      decode m w = some (.bge (w.extractLsb' 15 5) (w.extractLsb' 20 5) (fieldImmB w))) ∧
    (w &&& 0x0000707F#32 = 0x00006063#32 →
      decode m w = some (.bltu (w.extractLsb' 15 5) (w.extractLsb' 20 5) (fieldImmB w))) ∧
    (w &&& 0x0000707F#32 = 0x00007063#32 →
      decode m w = some (.bgeu (w.extractLsb' 15 5) (w.extractLsb' 20 5) (fieldImmB w))) ∧
    (w.extractLsb' 0 7 = 0b1100011#7 → w.extractLsb' 12 3 ∈ [0b010#3, 0b011#3] → decode m w = none)

/-- O9. R95. What `fieldImmJ` is: ImmediatesFollowTheFormatTable. -/
def Obligations.UpperAndJumpRowsDecode : Prop :=
  ∀ (m : Bool) (w : Word),
    (w &&& 0x0000007F#32 = 0x00000037#32 →
      decode m w = some (.lui (w.extractLsb' 7 5) (w.extractLsb' 12 20))) ∧
    (w &&& 0x0000007F#32 = 0x00000017#32 →
      decode m w = some (.auipc (w.extractLsb' 7 5) (w.extractLsb' 12 20))) ∧
    (w &&& 0x0000007F#32 = 0x0000006F#32 →
      decode m w = some (.jal (w.extractLsb' 7 5) (fieldImmJ w))) ∧
    (w &&& 0x0000707F#32 = 0x00000067#32 →
      decode m w = some (.jalr (w.extractLsb' 7 5) (w.extractLsb' 15 5) (w.extractLsb' 20 12))) ∧
    (w.extractLsb' 0 7 = 0b1100111#7 → w.extractLsb' 12 3 ≠ 0#3 → decode m w = none)

/-- O10. 30_encoding.md R96 and R97, whose masks are the spec's decision D12: "The decoder compares `opcode`, `funct3`
and `funct5`, and nothing else". -/
def Obligations.SystemAndAtomicRowsDecode : Prop :=
  ∀ (m : Bool) (w : Word),
    (w &&& 0xFFF0707F#32 = 0x00000073#32 →
      decode m w = some (.ecall (w.extractLsb' 7 5) (w.extractLsb' 15 5))) ∧
    (w &&& 0xFFF0707F#32 = 0x00100073#32 →
      decode m w = some (.ebreak (w.extractLsb' 7 5) (w.extractLsb' 15 5))) ∧
    (w &&& 0xF800707F#32 = 0x0000202F#32 →
      decode m w = some (.amoaddW (w.getLsbD 26) (w.getLsbD 25) (w.extractLsb' 7 5) (w.extractLsb' 15 5)
        (w.extractLsb' 20 5))) ∧
    (w &&& 0xF800707F#32 = 0x0800202F#32 →
      decode m w = some (.amoswapW (w.getLsbD 26) (w.getLsbD 25) (w.extractLsb' 7 5) (w.extractLsb' 15 5)
        (w.extractLsb' 20 5))) ∧
    (w &&& 0xF800707F#32 = 0x1000202F#32 →
      decode m w = some (.lrW (w.getLsbD 26) (w.getLsbD 25) (w.extractLsb' 7 5) (w.extractLsb' 15 5)
        (w.extractLsb' 20 5))) ∧
    (w &&& 0xF800707F#32 = 0x1800202F#32 →
      decode m w = some (.scW (w.getLsbD 26) (w.getLsbD 25) (w.extractLsb' 7 5) (w.extractLsb' 15 5)
        (w.extractLsb' 20 5))) ∧
    (w &&& 0xF800707F#32 = 0x2000202F#32 →
      decode m w = some (.amoxorW (w.getLsbD 26) (w.getLsbD 25) (w.extractLsb' 7 5) (w.extractLsb' 15 5)
        (w.extractLsb' 20 5))) ∧
    (w &&& 0xF800707F#32 = 0x4000202F#32 →
      decode m w = some (.amoorW (w.getLsbD 26) (w.getLsbD 25) (w.extractLsb' 7 5) (w.extractLsb' 15 5)
        (w.extractLsb' 20 5))) ∧
    (w &&& 0xF800707F#32 = 0x6000202F#32 →
      decode m w = some (.amoandW (w.getLsbD 26) (w.getLsbD 25) (w.extractLsb' 7 5) (w.extractLsb' 15 5)
        (w.extractLsb' 20 5))) ∧
    (w &&& 0xF800707F#32 = 0x8000202F#32 →
      decode m w = some (.amominW (w.getLsbD 26) (w.getLsbD 25) (w.extractLsb' 7 5) (w.extractLsb' 15 5)
        (w.extractLsb' 20 5))) ∧
    (w &&& 0xF800707F#32 = 0xA000202F#32 →
      decode m w = some (.amomaxW (w.getLsbD 26) (w.getLsbD 25) (w.extractLsb' 7 5) (w.extractLsb' 15 5)
        (w.extractLsb' 20 5))) ∧
    (w.extractLsb' 0 7 = 0b1110011#7 →
      (w.extractLsb' 12 3 ≠ 0#3 ∨ (w.extractLsb' 20 12 ≠ 0#12 ∧ w.extractLsb' 20 12 ≠ 1#12)) → decode m w = none) ∧
    (w.extractLsb' 0 7 = 0b0101111#7 →
      (w.extractLsb' 12 3 ≠ 0b010#3 ∨ w.extractLsb' 27 5 ∉ [0b00000#5, 0b00001#5, 0b00010#5, 0b00011#5, 0b00100#5,
        0b01000#5, 0b01100#5, 0b10000#5, 0b10100#5]) → decode m w = none)

/-- O11. 30_encoding.md R98: "Every word not selected by a row of rules R89 to R97 yields `None`." That the rows are
pairwise disjoint is R98's own derived sentence; the masks of ECALL, EBREAK and the atomics are the spec's
decision D12. -/
def Obligations.OtherWordsDecodeToNone : Prop :=
  (∀ w : Word, decode true w = none ↔ ∀ r ∈ opcodeRows, w &&& r.mask ≠ r.bits) ∧
    opcodeRows.Pairwise (fun r q => ∀ w : Word, ¬(w &&& r.mask = r.bits ∧ w &&& q.mask = q.bits)) ∧
    opcodeRows.length = 56 ∧
    ∀ (m : Bool) (w : Word),
      w.extractLsb' 0 7 ∉ [0b0110011#7, 0b0010011#7, 0b0000011#7, 0b0100011#7, 0b1100011#7, 0b0110111#7, 0b0010111#7,
        0b1101111#7, 0b1100111#7, 0b1110011#7, 0b0101111#7] →
      decode m w = none

/-- O12. R83 to R87, by the document's extract_bits, concat_bits and sign_extend (R10 to R12). -/
def Obligations.ImmediatesFollowTheFormatTable : Prop :=
  ∀ w : Word,
    sextImm (fieldImmI w) = sextBits 12 (extractBits w.toNat 20 32) ∧
    sextImm (fieldImmS w) = sextBits 12 (concatBits w.toNat [(25, 32), (7, 12)]) ∧
    sextImm (fieldImmB w) = sextBits 13 (concatBits w.toNat [(31, 32), (7, 8), (25, 31), (8, 12)] * 2) ∧
    upperImm (fieldImmU w) = w &&& 0xFFFFF000#32 ∧
    sextImm (fieldImmJ w) = sextBits 21 (concatBits w.toNat [(31, 32), (12, 20), (20, 21), (21, 31)] * 2) ∧
    (fieldShamt w).toNat = extractBits w.toNat 20 25

/-- O13. R22 (and the reading half of R21). -/
def Obligations.RegisterZeroIsHardwired : Prop :=
  ∀ (c : Context) (i : Reg) (v : Word),
    c.readReg 0#5 = 0#32 ∧ c.hostWriteReg 0#5 v = (c, 0#32) ∧ c.writeReg 0#5 v = c ∧
    (i ≠ 0#5 →
      (c.writeReg i v).readReg i = v ∧ (∀ j, j ≠ i → (c.writeReg i v).readReg j = c.readReg j) ∧
      c.hostWriteReg i v = (c.writeReg i v, c.readReg i)) ∧
    (c.writeReg i v).pc = c.pc ∧ (c.writeReg i v).ir = c.ir ∧ (c.writeReg i v).resv = c.resv

/-- O14. R131, R132. Semantics supplied by the spec from general knowledge (GK4; log 16). -/
def Obligations.AddAndSubWrapModulo : Prop :=
  ∀ (s : State) (rd rs1 rs2 : Reg),
    Completes (.add rd rs1 rs2) s (WritesReg rd (BitVec.ofNat 32 ((s.readReg rs1).toNat + (s.readReg rs2).toNat)) s) ∧
    Completes (.sub rd rs1 rs2) s (WritesReg rd (BitVec.ofInt 32
      ((s.readReg rs1).toNat - (s.readReg rs2).toNat : Int)) s)

/-- O15. R133, R134, R135. Semantics supplied by the spec from general knowledge (GK4; log 16). -/
def Obligations.LogicalOperationsAreBitwise : Prop :=
  ∀ (s : State) (rd rs1 rs2 : Reg),
    (∃ r : Word, (∀ k, r.getLsbD k = Bool.xor ((s.readReg rs1).getLsbD k) ((s.readReg rs2).getLsbD k)) ∧
      Completes (.xor rd rs1 rs2) s (WritesReg rd (r) s)) ∧
    (∃ r : Word, (∀ k, r.getLsbD k = Bool.or ((s.readReg rs1).getLsbD k) ((s.readReg rs2).getLsbD k)) ∧
      Completes (.or rd rs1 rs2) s (WritesReg rd (r) s)) ∧
    (∃ r : Word, (∀ k, r.getLsbD k = Bool.and ((s.readReg rs1).getLsbD k) ((s.readReg rs2).getLsbD k)) ∧
      Completes (.and rd rs1 rs2) s (WritesReg rd (r) s))

/-- O16. R136, R137, R138. Semantics supplied by the spec from general knowledge (GK4; log 16). -/
def Obligations.RegisterShiftsUseTheLowFiveBits : Prop :=
  ∀ (s : State) (rd rs1 rs2 : Reg),
    Completes (.sll rd rs1 rs2) s (WritesReg rd (BitVec.ofNat 32
      ((s.readReg rs1).toNat * 2 ^ ((s.readReg rs2).toNat % 32))) s) ∧
    Completes (.srl rd rs1 rs2) s (WritesReg rd (BitVec.ofNat 32
      ((s.readReg rs1).toNat / 2 ^ ((s.readReg rs2).toNat % 32))) s) ∧
    Completes (.sra rd rs1 rs2) s (WritesReg rd (BitVec.ofInt 32
      ((s.readReg rs1).toInt / 2 ^ ((s.readReg rs2).toNat % 32))) s)

/-- O17. R151 to R154. Semantics supplied by the spec from general knowledge (GK4; log 16). -/
def Obligations.MultipliesKeepTheLowOrHighHalf : Prop :=
  ∀ (s : State) (rd rs1 rs2 : Reg),
    Completes (.mul rd rs1 rs2) s (WritesReg rd (BitVec.ofNat 32 ((s.readReg rs1).toNat * (s.readReg rs2).toNat)) s) ∧
    Completes (.mulh rd rs1 rs2) s (WritesReg rd ((BitVec.ofInt 64
      ((s.readReg rs1).toInt * (s.readReg rs2).toInt)).extractLsb' 32 32) s) ∧
    Completes (.mulhsu rd rs1 rs2) s (WritesReg rd ((BitVec.ofInt 64
      ((s.readReg rs1).toInt * (s.readReg rs2).toNat)).extractLsb' 32 32) s) ∧
    Completes (.mulhu rd rs1 rs2) s (WritesReg rd (BitVec.ofNat 32
      ((s.readReg rs1).toNat * (s.readReg rs2).toNat / 2 ^ 32)) s)

/-- O18. R155, R157; `tdiv` rounds toward zero and `tmod` has the sign of the dividend. Semantics supplied by the spec
from general knowledge (GK4; log 16). -/
def Obligations.SignedDivisionNeverFaults : Prop :=
  ∀ (s : State) (rd rs1 rs2 : Reg),
    Completes (.div rd rs1 rs2) s (WritesReg rd (if (s.readReg rs2).toInt = 0 then 0xFFFFFFFF#32
        else if (s.readReg rs1).toInt = -2 ^ 31 ∧ (s.readReg rs2).toInt = -1 then 0x80000000#32
        else BitVec.ofInt 32 ((s.readReg rs1).toInt.tdiv (s.readReg rs2).toInt)) s) ∧
    Completes (.rem rd rs1 rs2) s (WritesReg rd (if (s.readReg rs2).toInt = 0 then s.readReg rs1
        else if (s.readReg rs1).toInt = -2 ^ 31 ∧ (s.readReg rs2).toInt = -1 then 0#32
        else BitVec.ofInt 32 ((s.readReg rs1).toInt.tmod (s.readReg rs2).toInt)) s) ∧
    ((s.readReg rs2).toInt ≠ 0 → divSigned (s.readReg rs1) (s.readReg rs2) * s.readReg rs2 +
      remSigned (s.readReg rs1) (s.readReg rs2) = s.readReg rs1)

/-- O19. R156, R158. Semantics supplied by the spec from general knowledge (GK4; log 16). -/
def Obligations.UnsignedDivisionNeverFaults : Prop :=
  ∀ (s : State) (rd rs1 rs2 : Reg),
    Completes (.divu rd rs1 rs2) s (WritesReg rd (if s.readReg rs2 = 0#32 then 0xFFFFFFFF#32
        else BitVec.ofNat 32 ((s.readReg rs1).toNat / (s.readReg rs2).toNat)) s) ∧
    Completes (.remu rd rs1 rs2) s (WritesReg rd (if s.readReg rs2 = 0#32 then s.readReg rs1
        else BitVec.ofNat 32 ((s.readReg rs1).toNat % (s.readReg rs2).toNat)) s)

/-- O20. R171 to R174. Semantics supplied by the spec from general knowledge (GK4; log 16). -/
def Obligations.ImmediateAddAndLogicSignExtend : Prop :=
  ∀ (s : State) (rd rs1 : Reg) (imm : BitVec 12),
    Completes (.addi rd rs1 imm) s (WritesReg rd (BitVec.ofInt 32 ((s.readReg rs1).toNat + imm.toInt : Int)) s) ∧
    Completes (.xori rd rs1 imm) s (WritesReg rd (s.readReg rs1 ^^^ BitVec.ofInt 32 imm.toInt) s) ∧
    Completes (.ori rd rs1 imm) s (WritesReg rd (s.readReg rs1 ||| BitVec.ofInt 32 imm.toInt) s) ∧
    Completes (.andi rd rs1 imm) s (WritesReg rd (s.readReg rs1 &&& BitVec.ofInt 32 imm.toInt) s)

/-- O21. R175, R176, R177. Semantics supplied by the spec from general knowledge (GK4; log 16). -/
def Obligations.ImmediateShiftsUseTheShiftAmount : Prop :=
  ∀ (s : State) (rd rs1 : Reg) (shamt : BitVec 5),
    Completes (.slli rd rs1 shamt) s (WritesReg rd (BitVec.ofNat 32 ((s.readReg rs1).toNat * 2 ^ shamt.toNat)) s) ∧
    Completes (.srli rd rs1 shamt) s (WritesReg rd (BitVec.ofNat 32 ((s.readReg rs1).toNat / 2 ^ shamt.toNat)) s) ∧
    Completes (.srai rd rs1 shamt) s (WritesReg rd (BitVec.ofInt 32 ((s.readReg rs1).toInt / 2 ^ shamt.toNat)) s)

/-- O22. R139, R140, R178, R179. Semantics supplied by the spec from general knowledge (GK4; log 16). -/
def Obligations.ComparesWriteZeroOrOne : Prop :=
  ∀ (s : State) (rd rs1 rs2 : Reg) (imm : BitVec 12),
    Completes (.slt rd rs1 rs2) s (WritesReg rd (if (s.readReg rs1).toInt < (s.readReg rs2).toInt then 1#32 else
      0#32) s) ∧
    Completes (.sltu rd rs1 rs2) s (WritesReg rd (if (s.readReg rs1).toNat < (s.readReg rs2).toNat then 1#32 else
      0#32) s) ∧
    Completes (.slti rd rs1 imm) s (WritesReg rd (if (s.readReg rs1).toInt < imm.toInt then 1#32 else 0#32) s) ∧
    Completes (.sltiu rd rs1 imm) s (WritesReg rd (if ((s.readReg rs1).toNat : Int) < imm.toInt % 2 ^ 32 then 1#32
      else 0#32) s)

/-- O23. R192, R193, R194. Semantics supplied by the spec from general knowledge (GK4; log 16). -/
def Obligations.SignedLoadsAndLoadWord : Prop :=
  ∀ (s : State) (rd rs1 : Reg) (imm : BitVec 12),
    effectiveAddress s rs1 imm = BitVec.ofInt 32 ((s.readReg rs1).toNat + imm.toInt : Int) ∧
    (s.cfg.admits (effectiveAddress s rs1 imm).toNat 1 →
      Completes (.lb rd rs1 imm) s (WritesReg rd ((s.byteAt (effectiveAddress s rs1 imm).toNat).signExtend 32) s)) ∧
    (s.cfg.admits (effectiveAddress s rs1 imm).toNat 2 →
      Completes (.lh rd rs1 imm) s (WritesReg rd ((s.halfAt (effectiveAddress s rs1 imm).toNat).signExtend 32) s)) ∧
    (s.cfg.admits (effectiveAddress s rs1 imm).toNat 4 →
      Completes (.lw rd rs1 imm) s (WritesReg rd (s.wordAt (effectiveAddress s rs1 imm).toNat) s))

/-- O24. 44_loads_stores.md R195 and R196: "Reported as not yet implemented in the source code; implemented here" (the
spec's decision D9). -/
def Obligations.UnsignedLoadsZeroExtend : Prop :=
  ∀ (s : State) (rd rs1 : Reg) (imm : BitVec 12),
    (s.cfg.admits (effectiveAddress s rs1 imm).toNat 1 →
      Completes (.lbu rd rs1 imm) s (WritesReg rd ((s.byteAt (effectiveAddress s rs1 imm).toNat).setWidth 32) s)) ∧
    (s.cfg.admits (effectiveAddress s rs1 imm).toNat 2 →
      Completes (.lhu rd rs1 imm) s (WritesReg rd ((s.halfAt (effectiveAddress s rs1 imm).toNat).setWidth 32) s))

/-- O25. 44_loads_stores.md R190, 40_step_cycle.md R117 (marked as the spec's inference); the outcome is a fault that
carries the state, log 1. -/
def Obligations.LoadsOutsideTheWindowChangeNothing : Prop :=
  ∀ (s : State) (rd rs1 : Reg) (imm : BitVec 12),
    (¬s.cfg.admits (effectiveAddress s rs1 imm).toNat 1 → FatalLeaving (exec (.lb rd rs1 imm) s) .memoryViolation s) ∧
    (¬s.cfg.admits (effectiveAddress s rs1 imm).toNat 1 → FatalLeaving (exec (.lbu rd rs1 imm) s) .memoryViolation
      s) ∧
    (¬s.cfg.admits (effectiveAddress s rs1 imm).toNat 2 → FatalLeaving (exec (.lh rd rs1 imm) s) .memoryViolation s) ∧
    (¬s.cfg.admits (effectiveAddress s rs1 imm).toNat 2 → FatalLeaving (exec (.lhu rd rs1 imm) s) .memoryViolation
      s) ∧
    (¬s.cfg.admits (effectiveAddress s rs1 imm).toNat 4 → FatalLeaving (exec (.lw rd rs1 imm) s) .memoryViolation s)

/-- O26. R198, R199, R200. Semantics supplied by the spec from general knowledge (GK4; log 16). -/
def Obligations.StoresWriteExactlyTheirBytes : Prop :=
  ∀ (s : State) (rs1 rs2 : Reg) (imm : BitVec 12),
    (s.cfg.admits (effectiveAddress s rs1 imm).toNat 1 →
      Completes (.sb rs1 rs2 imm) s (StoresAt (effectiveAddress s rs1 imm).toNat 1 (s.readReg rs2) s)) ∧
    (s.cfg.admits (effectiveAddress s rs1 imm).toNat 2 →
      Completes (.sh rs1 rs2 imm) s (StoresAt (effectiveAddress s rs1 imm).toNat 2 (s.readReg rs2) s)) ∧
    (s.cfg.admits (effectiveAddress s rs1 imm).toNat 4 →
      Completes (.sw rs1 rs2 imm) s (StoresAt (effectiveAddress s rs1 imm).toNat 4 (s.readReg rs2) s))

/-- O27. 44_loads_stores.md R190, 20_memory.md R53 ("partial writes on failure are forbidden"), 40_step_cycle.md R117;
log 1. -/
def Obligations.StoresOutsideTheWindowWriteNothing : Prop :=
  ∀ (s : State) (rs1 rs2 : Reg) (imm : BitVec 12),
    (¬s.cfg.admits (effectiveAddress s rs1 imm).toNat 1 → FatalLeaving (exec (.sb rs1 rs2 imm) s) .memoryViolation
      s) ∧
    (¬s.cfg.admits (effectiveAddress s rs1 imm).toNat 2 → FatalLeaving (exec (.sh rs1 rs2 imm) s) .memoryViolation
      s) ∧
    (¬s.cfg.admits (effectiveAddress s rs1 imm).toNat 4 → FatalLeaving (exec (.sw rs1 rs2 imm) s) .memoryViolation s)

/-- O28. 20_memory.md section 7: "store then load of the same bytes returns the stored bytes" (R66). -/
def Obligations.LoadAfterStoreReturnsTheWord : Prop :=
  ∀ (s : State) (rd rs1 rs2 : Reg) (imm : BitVec 12), s.cfg.admits (effectiveAddress s rs1 imm).toNat 4 →
    ∃ t u, exec (.sw rs1 rs2 imm) s = .next t ∧ exec (.lw rd rs1 imm) t = .next u ∧
      u.readReg rd = if rd = 0#5 then 0#32 else s.readReg rs2

/-- O29. 20_memory.md section 7, R69, which the spec marks as derived: "self-modifying code works without precaution". -/
def Obligations.StoreIntoTheNextInstructionIsFetched : Prop :=
  ∀ (s : State) (rs1 rs2 : Reg) (imm : BitVec 12), effectiveAddress s rs1 imm = s.ctx.pc → s.cfg.admits
    (effectiveAddress s rs1 imm).toNat 4 →
    ∃ t, exec (.sw rs1 rs2 imm) s = .next t ∧ t.fetch = some (s.readReg rs2)

/-- O30. R211 to R217. Semantics supplied by the spec from general knowledge (GK4; log 16). -/
def Obligations.BranchesGoToTheTargetOrOn : Prop :=
  ∀ (s : State) (rs1 rs2 : Reg) (imm : BitVec 13),
    Completes (.beq rs1 rs2 imm) s
      (GoesTo (if s.readReg rs1 = s.readReg rs2 then BitVec.ofInt 32 ((s.ctx.pc - 4#32).toNat + imm.toInt : Int)
        else s.ctx.pc) s) ∧
    Completes (.bne rs1 rs2 imm) s
      (GoesTo (if s.readReg rs1 ≠ s.readReg rs2 then BitVec.ofInt 32 ((s.ctx.pc - 4#32).toNat + imm.toInt : Int)
        else s.ctx.pc) s) ∧
    Completes (.blt rs1 rs2 imm) s
      (GoesTo (if (s.readReg rs1).toInt < (s.readReg rs2).toInt then BitVec.ofInt 32
        ((s.ctx.pc - 4#32).toNat + imm.toInt : Int) else s.ctx.pc) s) ∧
    Completes (.bge rs1 rs2 imm) s
      (GoesTo (if (s.readReg rs2).toInt ≤ (s.readReg rs1).toInt then BitVec.ofInt 32
        ((s.ctx.pc - 4#32).toNat + imm.toInt : Int) else s.ctx.pc) s) ∧
    Completes (.bltu rs1 rs2 imm) s
      (GoesTo (if (s.readReg rs1).toNat < (s.readReg rs2).toNat then BitVec.ofInt 32
        ((s.ctx.pc - 4#32).toNat + imm.toInt : Int) else s.ctx.pc) s) ∧
    Completes (.bgeu rs1 rs2 imm) s
      (GoesTo (if (s.readReg rs2).toNat ≤ (s.readReg rs1).toNat then BitVec.ofInt 32
        ((s.ctx.pc - 4#32).toNat + imm.toInt : Int) else s.ctx.pc) s)

/-- O31. R218, R219. Semantics supplied by the spec from general knowledge (GK4; log 16). -/
def Obligations.UpperImmediatesWriteTheirValue : Prop :=
  ∀ (s : State) (rd : Reg) (imm : BitVec 20),
    Completes (.lui rd imm) s (WritesReg rd (BitVec.ofNat 32 (imm.toNat * 4096)) s) ∧
    Completes (.auipc rd imm) s (WritesReg rd (BitVec.ofNat 32 ((s.ctx.pc - 4#32).toNat + imm.toNat * 4096)) s)

/-- O32. R220. Semantics supplied by the spec from general knowledge (GK4; log 16). -/
def Obligations.JalLinksAndJumps : Prop :=
  ∀ (s : State) (rd : Reg) (imm : BitVec 21),
    Completes (.jal rd imm) s
      (JumpsTo (BitVec.ofInt 32 ((s.ctx.pc - 4#32).toNat + imm.toInt : Int)) rd ((s.ctx.pc - 4#32) + 4#32) s)

/-- O33. R221. Semantics supplied by the spec from general knowledge (GK4; log 16). -/
def Obligations.JalrJumpsFromTheOldRegister : Prop :=
  ∀ (s : State) (rd rs1 : Reg) (imm : BitVec 12),
    Completes (.jalr rd rs1 imm) s
      (JumpsTo (BitVec.ofNat 32 ((s.readReg rs1 + BitVec.ofInt 32 imm.toInt).toNat / 2 * 2)) rd
        ((s.ctx.pc - 4#32) + 4#32) s)

/-- O34. 46_system.md R231 and R232, 40_step_cycle.md R116: "`EnvBreak` → emit `PauseTask` event and detach" (ECALL: the
spec's decision D8; the report field: log 2). -/
def Obligations.EcallAndEbreakPauseTheTask : Prop :=
  ∀ (s : State) (rd rs1 : Reg),
    Completes (.ecall rd rs1) s (Pauses .envCall s) ∧ Completes (.ebreak rd rs1) s (Pauses .envBreak s)

/-- O35. 47_atomics.md R241: "`Lr` at address A sets the reservation to A". -/
def Obligations.LoadReservedSetsTheReservation : Prop :=
  ∀ (s : State) (aq rl : Bool) (rd rs1 rs2 : Reg), s.cfg.admits (s.readReg rs1).toNat 4 →
    Completes (.lrW aq rl rd rs1 rs2) s fun t =>
      OnlyReg rd (s.wordAt (s.readReg rs1).toNat) s t ∧ t.ctx.resv = some (s.readReg rs1) ∧ t.ctx.pc = s.ctx.pc ∧
      SameMemory s t ∧ SameControl s t

/-- O36. 47_atomics.md R242, with the success code of the spec's decision D13. -/
def Obligations.StoreConditionalSucceedsOnItsReservation : Prop :=
  ∀ (s : State) (aq rl : Bool) (rd rs1 rs2 : Reg), s.ctx.resv = some (s.readReg rs1) → s.cfg.admits
    (s.readReg rs1).toNat 4 →
    Completes (.scW aq rl rd rs1 rs2) s fun t =>
      SwapsAt (s.readReg rs1).toNat (s.readReg rs2) rd 0#32 s t ∧ t.ctx.resv = none

/-- O37. 47_atomics.md R242, with the failure code and the cleared reservation of the spec's decision D13. -/
def Obligations.StoreConditionalFailsWithoutItsReservation : Prop :=
  ∀ (s : State) (aq rl : Bool) (rd rs1 rs2 : Reg), s.ctx.resv ≠ some (s.readReg rs1) →
    Completes (.scW aq rl rd rs1 rs2) s fun t =>
      OnlyReg rd 1#32 s t ∧ t.ctx.resv = none ∧ t.ctx.pc = s.ctx.pc ∧ SameMemory s t ∧ SameControl s t

/-- O38. 47_atomics.md R243 to R247; that every AMO ends a covered reservation is the spec's decision D14. Semantics
supplied by the spec from general knowledge (GK4; log 16). -/
def Obligations.AmosWriteTheOperationAndReturnTheOldWord : Prop :=
  ∀ (s : State) (aq rl : Bool) (rd rs1 rs2 : Reg), s.cfg.admits (s.readReg rs1).toNat 4 →
    Completes (.amoswapW aq rl rd rs1 rs2) s (SwapsAt (s.readReg rs1).toNat (s.readReg rs2) rd
      (s.wordAt (s.readReg rs1).toNat) s) ∧
    Completes (.amoaddW aq rl rd rs1 rs2) s (SwapsAt (s.readReg rs1).toNat
      (BitVec.ofNat 32 ((s.wordAt (s.readReg rs1).toNat).toNat + (s.readReg rs2).toNat)) rd
      (s.wordAt (s.readReg rs1).toNat) s) ∧
    Completes (.amoandW aq rl rd rs1 rs2) s (SwapsAt (s.readReg rs1).toNat
      ((s.wordAt (s.readReg rs1).toNat) &&& s.readReg rs2) rd (s.wordAt (s.readReg rs1).toNat) s) ∧
    Completes (.amoorW aq rl rd rs1 rs2) s (SwapsAt (s.readReg rs1).toNat
      ((s.wordAt (s.readReg rs1).toNat) ||| s.readReg rs2) rd (s.wordAt (s.readReg rs1).toNat) s) ∧
    Completes (.amoxorW aq rl rd rs1 rs2) s (SwapsAt (s.readReg rs1).toNat
      ((s.wordAt (s.readReg rs1).toNat) ^^^ s.readReg rs2) rd (s.wordAt (s.readReg rs1).toNat) s)

/-- O39. 47_atomics.md R248 and R249; that every AMO ends a covered reservation is the spec's decision D14. Semantics
supplied by the spec from general knowledge (GK4; log 16). -/
def Obligations.AmoMaxAndMinCompareAsSigned : Prop :=
  ∀ (s : State) (aq rl : Bool) (rd rs1 rs2 : Reg), s.cfg.admits (s.readReg rs1).toNat 4 →
    Completes (.amomaxW aq rl rd rs1 rs2) s (SwapsAt (s.readReg rs1).toNat
      (BitVec.ofInt 32 (max (s.wordAt (s.readReg rs1).toNat).toInt (s.readReg rs2).toInt)) rd
      (s.wordAt (s.readReg rs1).toNat) s) ∧
    Completes (.amominW aq rl rd rs1 rs2) s (SwapsAt (s.readReg rs1).toNat
      (BitVec.ofInt 32 (min (s.wordAt (s.readReg rs1).toNat).toInt (s.readReg rs2).toInt)) rd
      (s.wordAt (s.readReg rs1).toNat) s)

/-- O40. 47_atomics.md R240: "The only fault is `MemoryViolation`, raised before any state changes"; log 1. -/
def Obligations.AtomicsOutsideTheWindowChangeNothing : Prop :=
  ∀ (s : State) (aq rl : Bool) (rd rs1 rs2 : Reg), ¬s.cfg.admits (s.readReg rs1).toNat 4 →
    FatalLeaving (exec (.lrW aq rl rd rs1 rs2) s) .memoryViolation s ∧
    FatalLeaving (exec (.amoswapW aq rl rd rs1 rs2) s) .memoryViolation s ∧
    FatalLeaving (exec (.amoaddW aq rl rd rs1 rs2) s) .memoryViolation s ∧
    FatalLeaving (exec (.amoxorW aq rl rd rs1 rs2) s) .memoryViolation s ∧
    FatalLeaving (exec (.amoandW aq rl rd rs1 rs2) s) .memoryViolation s ∧
    FatalLeaving (exec (.amoorW aq rl rd rs1 rs2) s) .memoryViolation s ∧
    FatalLeaving (exec (.amominW aq rl rd rs1 rs2) s) .memoryViolation s ∧
    FatalLeaving (exec (.amomaxW aq rl rd rs1 rs2) s) .memoryViolation s ∧
    (s.ctx.resv = some (s.readReg rs1) →
      FatalLeaving (exec (.scW aq rl rd rs1 rs2) s) .memoryViolation s)

/-- O41. The table of 47_atomics.md R250, which the spec marks as derived. -/
def Obligations.ReservationComesFromLoadReservedOnly : Prop :=
  ∀ (i : Instr) (s t : State), exec i s = .next t →
    (∀ r, t.ctx.resv = some r →
      s.ctx.resv = some r ∨ ∃ aq rl rd rs1 rs2, i = .lrW aq rl rd rs1 rs2 ∧ r = s.readReg rs1) ∧
    (∀ aq rl rd rs1 rs2, i = .scW aq rl rd rs1 rs2 → t.ctx.resv = none) ∧
    (storesToMemory i = false → (∀ aq rl rd rs1 rs2, i ≠ .lrW aq rl rd rs1 rs2) → t.ctx.resv = s.ctx.resv)

/-- O42. 20_memory.md section 7, R70, which the spec marks as derived: "A write changes only the addressed bytes". -/
def Obligations.MemoryChangesByStoresOnly : Prop :=
  ∀ (i : Instr) (s t : State), exec i s = .next t → storesToMemory i = false → SameMemory s t

/-- O43. 10_state.md section 3, R25: "Every other instruction leaves `pc = ipc + 4`." -/
def Obligations.OnlyBranchesAndJumpsWritePc : Prop :=
  ∀ (i : Instr) (s t : State), exec i s = .next t → transfersControl i = false → t.ctx.pc = s.ctx.pc

/-- O44. 40_step_cycle.md section 2, R111; that a fetch writes IR is the spec's decision D6. -/
def Obligations.StepRunsTheDecodedInstruction : Prop :=
  ∀ (s : State) (i : Instr), s.Ready → s.cfg.admits s.ctx.pc.toNat 4 →
    [s.byteAt s.ctx.pc.toNat, s.byteAt (s.ctx.pc.toNat + 1), s.byteAt (s.ctx.pc.toNat + 2), s.byteAt
      (s.ctx.pc.toNat + 3)] ≠ s.cfg.trapSig →
    decode s.cfg.mEnabled (s.wordAt s.ctx.pc.toNat) = some i →
    step s = exec i s.afterFetch

/-- O45. 40_step_cycle.md section 2, R112: "fail fast with `MemoryViolation` if out of range"; the state left is the
spec's inference (R117); log 1. -/
def Obligations.FetchOutsideTheWindowChangesNothing : Prop :=
  ∀ s : State, s.Ready → ¬s.cfg.admits s.ctx.pc.toNat 4 → FatalLeaving (step s) .memoryViolation s

/-- O46. 40_step_cycle.md section 2, R114: "without attempting to decode those bytes as an instruction"; the bytes are
the spec's decision D2. -/
def Obligations.TrapSignatureFinishesTheTask : Prop :=
  (∀ s : State, s.Ready → s.cfg.admits s.ctx.pc.toNat 4 →
      [s.byteAt s.ctx.pc.toNat, s.byteAt (s.ctx.pc.toNat + 1), s.byteAt (s.ctx.pc.toNat + 2), s.byteAt
        (s.ctx.pc.toNat + 3)] = s.cfg.trapSig →
      step s = .next ((s.afterFetch.detached).setReport (some (.event .taskFinished)))) ∧
    Config.default.trapSig = [0xde#8, 0xad#8, 0xbe#8, 0xef#8]

/-- O47. 40_step_cycle.md section 2, R115 (the spec's decision D7); log 1. -/
def Obligations.InvalidWordIsFatal : Prop :=
  ∀ s : State, s.Ready → s.cfg.admits s.ctx.pc.toNat 4 →
    [s.byteAt s.ctx.pc.toNat, s.byteAt (s.ctx.pc.toNat + 1), s.byteAt (s.ctx.pc.toNat + 2), s.byteAt
      (s.ctx.pc.toNat + 3)] ≠ s.cfg.trapSig →
    decode s.cfg.mEnabled (s.wordAt s.ctx.pc.toNat) = none →
    FatalLeaving (step s) .invalidInstruction s.afterFetch

/-- O48. 40_step_cycle.md R121: "A model must not give such a call a result: it is a refusal (no step exists), never a
silent no-op and never a step on some leftover Context." That this holds of a count of 0 as well (R118 says `N =
0` changes nothing) and the names of the refusals are the model's choice (log 13, DEDUCED). -/
def Obligations.ContractViolationsAreRefused : Prop :=
  ∀ s : State,
    (s.cpuState = .vacant →
      step s = .refused .stepWhileVacant ∧ (∀ n, (executeShuttle n s).result = .refused .stepWhileVacant) ∧
      s.detach = .refused .detachWhileVacant) ∧
    (s.cpuState = .running → ∀ c id, s.attach c id = .refused .attachWhileRunning)

/-- O49. 40_step_cycle.md R128 (decision D16) and 20_memory.md R57 (decision D4). -/
def Obligations.StepsWithoutMeaningStop : Prop :=
  ∀ s : State, s.cpuState = .running →
    (∀ st, s.report = some (.fatal st) → step s = .fault .stuckAfterFatal) ∧
    (s.report = none → s.cfg.pcAlignPolicy = .refuse → s.ctx.pc.toNat % 4 ≠ 0 → step s = .refused .unalignedPc)

/-- O50. The invariant joins 10_state.md R29 (task_id is set iff state is not Vacant), R31 (nothing at any other
address), 00_scope.md R9's constraint, and the model's canonical form of memory (log 6). -/
def Obligations.StepKeepsTheMachineInvariant : Prop :=
  ∀ s t : State, s.Inv → step s = .next t → t.Inv

/-- O51. The start of the induction whose step is StepKeepsTheMachineInvariant. -/
def Obligations.ResetMeetsTheMachineInvariant : Prop :=
  State.reset.Inv

/-- O52. 95_test_vectors.md section 3.7: "No program can reach this state (LR.W at 0 faults and sets no reservation)". -/
def Obligations.StepKeepsTheReservationInTheWindow : Prop :=
  ∀ s t : State, s.resvInWindow → step s = .next t → t.resvInWindow

/-- O53. The rows Continue, Finished and Paused of 40_step_cycle.md R117, which the spec marks as derived, and the
transitions of R125. -/
def Obligations.StepContinuesOrReportsAnEvent : Prop :=
  ∀ s t : State, s.report = none → step s = .next t →
    t.cfg = s.cfg ∧ t.ctx.ir = s.wordAt s.ctx.pc.toNat ∧ s.cpuState = .running ∧
    ((t.cpuState = .running ∧ t.taskId = s.taskId ∧ t.report = none) ∨
      (t.cpuState = .vacant ∧ t.taskId = none ∧
        (t.report = some (.event .taskFinished) ∨ ∃ c, t.report = some (.event (.pauseTask c))) ∧
        t.ctx.pc = s.ctx.pc + 4#32 ∧ SameRegs s t ∧ t.ctx.resv = s.ctx.resv ∧ SameMemory s t))

/-- O54. The Fatal rows of 40_step_cycle.md R117 and 60_exceptions.md R275 and R280, which the spec marks as derived or
decided; the fault that carries the state is the model's (log 1). -/
def Obligations.FatalErrorsLeaveTheStatePrecise : Prop :=
  ∀ (s left : State) (st : FatalStatus), step s = .fault (.fatalStepError st left) →
    st ≠ .unknown ∧ left.report = some (.fatal st) ∧ left.cpuState = .running ∧ left.taskId = s.taskId ∧
    left.cfg = s.cfg ∧ SameRegs s left ∧ left.ctx.resv = s.ctx.resv ∧ SameMemory s left ∧
    ((¬s.cfg.admits s.ctx.pc.toNat 4 ∧ st = .memoryViolation ∧ left.ctx.pc = s.ctx.pc ∧ left.ctx.ir = s.ctx.ir) ∨
      (s.cfg.admits s.ctx.pc.toNat 4 ∧ left.ctx.pc = s.ctx.pc + 4#32 ∧ left.ctx.ir = s.wordAt s.ctx.pc.toNat))

/-- O55. 10_state.md R37, 70_reset_and_hazards.md R300 and R301 (the spec's decisions D18 and D19). -/
def Obligations.ResetLeavesAVacantCpu : Prop :=
  State.reset.cpuState = .vacant ∧ State.reset.taskId = none ∧ (∀ a, Memory.lookup State.reset.mem a = none) ∧
    State.reset.ctx.pc = 0x80000000#32 ∧ State.reset.ctx.resv = none ∧ State.reset.readReg 0#5 = 0#32

/-- O56. 40_step_cycle.md R123 and R124 (the spec's decision D29); that attach clears the report is the model's (log 12). -/
def Obligations.AttachInstallsTheContextAsGiven : Prop :=
  ∀ (s : State) (c : Context) (id : TaskId),
    (s.cpuState = .vacant → ∃ t u, s.attach c id = .next t ∧ t.cpuState = .running ∧ t.taskId = some id ∧ t.ctx = c ∧
      t.mem = s.mem ∧ t.cfg = s.cfg ∧ t.draws = s.draws ∧ t.report = none ∧
      t.detach = .next u ∧ u.ctx = c ∧ u.cpuState = .vacant ∧ u.mem = s.mem) ∧
    (s.cpuState = .running → ∃ t, s.detach = .next t ∧ t.cpuState = .vacant ∧ t.taskId = none ∧ t.ctx = s.ctx ∧
      t.mem = s.mem ∧ t.cfg = s.cfg ∧ t.draws = s.draws)

/-- O57. 60_exceptions.md section 6, R283: "that `pc` is the instruction after the ECALL or EBREAK, so resuming does not
re-execute it". -/
def Obligations.ResumingContinuesAfterThePause : Prop :=
  ∀ (s t : State) (c : PauseCause) (id : TaskId), s.report = none → step s = .next t →
    t.report = some (.event (.pauseTask c)) →
    ∃ u, t.resume id = .next u ∧ u.ctx = t.ctx ∧ u.ctx.pc = s.ctx.pc + 4#32 ∧ SameRegs s u ∧
      u.ctx.resv = s.ctx.resv ∧ SameMemory s u ∧ u.cpuState = .running ∧ u.taskId = some id ∧ u.report = none

/-- O58. 40_step_cycle.md section 3, R118 (the spec's decision D25); that the step which ends in a fatal error is counted
is the model's reading (log 19). -/
def Obligations.ExecuteShuttleStopsEarlyOrRunsAll : Prop :=
  ∀ (n : Nat) (s : State), s.cpuState = .running → s.report = none →
    ((executeShuttle 0 s).result = .next s ∧ (executeShuttle 0 s).steps = 0) ∧
    (∀ t, step s = .next t → t.report = none →
      (executeShuttle (n + 1) s).result = (executeShuttle n t).result ∧
      (executeShuttle (n + 1) s).steps = (executeShuttle n t).steps + 1) ∧
    (∀ t r, step s = .next t → t.report = some r →
      (executeShuttle (n + 1) s).result = .next t ∧ (executeShuttle (n + 1) s).steps = 1 ∧
      (executeShuttle (n + 1) s).last = some (outcomeOfReport (some r))) ∧
    (∀ st left, step s = .fault (.fatalStepError st left) →
      (executeShuttle (n + 1) s).result = .fault (.fatalStepError st left) ∧
      (executeShuttle (n + 1) s).last = some (.fatal st)) ∧
    (executeShuttle n s).steps ≤ n ∧
    (∀ t, (executeShuttle n s).result = .next t → t.report = none → (executeShuttle n s).steps = n)

/-- O59. 20_memory.md section 6, R63 (the spec's decision D28) and R65; that the region's bounds are checked is the
model's reading (log 11). -/
def Obligations.LoadProgramChecksCapacityThenBounds : Prop :=
  ∀ (s : State) (bytes : List Byte) (start region : Nat) (tail : Bool),
    (region < bytes.length → s.loadProgram bytes start region tail = .error .resourceExhausted) ∧
    (bytes.length ≤ region → ¬s.cfg.admits start region →
      s.loadProgram bytes start region tail = .error .outOfRange) ∧
    (bytes.length ≤ region → s.cfg.admits start region →
      ∃ t, s.loadProgram bytes start region tail = .ok t ∧ t.ctx = s.ctx ∧ t.cpuState = s.cpuState ∧
        t.taskId = s.taskId ∧ t.report = s.report ∧ t.cfg = s.cfg ∧
        (∀ (k : Nat) (h : k < bytes.length), t.byteAt (start + k) = bytes[k]) ∧
        (∀ a, (a < start ∨ start + region ≤ a) → t.byteAt a = s.byteAt a) ∧
        (tail = false → ∀ a, start + bytes.length ≤ a → t.byteAt a = s.byteAt a))

/-- O60. 20_memory.md section 2, R52: "every access must satisfy `base ≤ addr` and `addr + len ≤ base + size`" (no wrap:
the spec's decision D5). -/
def Obligations.AccessesAreAdmittedByTheWindowOnly : Prop :=
  ∀ (s : State) (a n v : Nat) (w u : Word) (bytes : List Byte),
    ((s.memRead w n).isSome = true ↔
      s.cfg.memBase ≤ w.toNat ∧ w.toNat + n ≤ s.cfg.memBase + s.cfg.memSize) ∧
    ((s.memWrite w n u).isSome = true ↔
      s.cfg.memBase ≤ w.toNat ∧ w.toNat + n ≤ s.cfg.memBase + s.cfg.memSize) ∧
    ((s.hostReadN a n).isOk = true ↔ s.cfg.memBase ≤ a ∧ a + n ≤ s.cfg.memBase + s.cfg.memSize) ∧
    ((s.hostReadTyped a n).isOk = true ↔ s.cfg.memBase ≤ a ∧ a + n ≤ s.cfg.memBase + s.cfg.memSize) ∧
    ((s.hostWriteN a bytes).isOk = true ↔ s.cfg.memBase ≤ a ∧ a + bytes.length ≤ s.cfg.memBase + s.cfg.memSize) ∧
    ((s.hostWriteTyped a n v).isOk = true ↔ s.cfg.memBase ≤ a ∧ a + n ≤ s.cfg.memBase + s.cfg.memSize) ∧
    (0 < s.cfg.memBase → (s.hostRead (s.cfg.memBase - 1)).isOk = false) ∧
    (s.hostRead (s.cfg.memBase + s.cfg.memSize)).isOk = false ∧
    (0 < s.cfg.memSize → (s.hostRead s.cfg.memBase).isOk = true ∧
      (s.hostRead (s.cfg.memBase + s.cfg.memSize - 1)).isOk = true)
end

