-- ==== Sys2Proof/Laws/Decode.lean ====
section
/-! SUPPORT. The fields of encoded words, and the words that the fields make: what the encoder puts into a field the
decoder reads from it. -/

namespace Sys2Proof

theorem getLsbD_encodeR (f7 : BitVec 7) (rs2 rs1 : Reg) (f3 : BitVec 3) (rd : Reg) (op : BitVec 7) (i : Nat) : (encodeR f7 rs2 rs1 f3 rd op).getLsbD i =
      if i < 7 then op.getLsbD i else if i < 12 then rd.getLsbD (i - 7) else if i < 15 then f3.getLsbD (i - 12) else
      if i < 20 then rs1.getLsbD (i - 15) else if i < 25 then rs2.getLsbD (i - 20) else f7.getLsbD (i - 25) := by
  change BitVec.getLsbD (w := 7 + 5 + 5 + 3 + 5 + 7) (f7 ++ rs2 ++ rs1 ++ f3 ++ rd ++ op) i = _
  simp only [BitVec.getLsbD_append, Nat.sub_sub]
  repeat' split
  all_goals first | rfl | omega

theorem getLsbD_encodeI (imm : BitVec 12) (rs1 : Reg) (f3 : BitVec 3) (rd : Reg) (op : BitVec 7) (i : Nat) : (encodeI imm rs1 f3 rd op).getLsbD i =
      if i < 7 then op.getLsbD i else if i < 12 then rd.getLsbD (i - 7) else if i < 15 then f3.getLsbD (i - 12) else
      if i < 20 then rs1.getLsbD (i - 15) else imm.getLsbD (i - 20) := by
  change BitVec.getLsbD (w := 12 + 5 + 3 + 5 + 7) (imm ++ rs1 ++ f3 ++ rd ++ op) i = _
  simp only [BitVec.getLsbD_append, Nat.sub_sub]
  repeat' split
  all_goals first | rfl | omega

theorem getLsbD_encodeS (imm : BitVec 12) (rs2 rs1 : Reg) (f3 : BitVec 3) (op : BitVec 7) (i : Nat) : (encodeS imm rs2 rs1 f3 op).getLsbD i =
      if i < 7 then op.getLsbD i else if i < 12 then (imm.extractLsb' 0 5).getLsbD (i - 7) else if i < 15 then f3.getLsbD (i - 12) else
      if i < 20 then rs1.getLsbD (i - 15) else if i < 25 then rs2.getLsbD (i - 20) else (imm.extractLsb' 5 7).getLsbD (i - 25) := by
  change BitVec.getLsbD (w := 7 + 5 + 5 + 3 + 5 + 7) (imm.extractLsb' 5 7 ++ rs2 ++ rs1 ++ f3 ++ imm.extractLsb' 0 5 ++ op) i = _
  simp only [BitVec.getLsbD_append, Nat.sub_sub]
  repeat' split
  all_goals first | rfl | omega

theorem getLsbD_encodeB (imm : BitVec 13) (rs2 rs1 : Reg) (f3 : BitVec 3) (op : BitVec 7) (i : Nat) : (encodeB imm rs2 rs1 f3 op).getLsbD i =
      if i < 7 then op.getLsbD i else if i < 8 then (imm.extractLsb' 11 1).getLsbD (i - 7) else if i < 12 then (imm.extractLsb' 1 4).getLsbD (i - 8) else
      if i < 15 then f3.getLsbD (i - 12) else if i < 20 then rs1.getLsbD (i - 15) else if i < 25 then rs2.getLsbD (i - 20) else
      if i < 31 then (imm.extractLsb' 5 6).getLsbD (i - 25) else (imm.extractLsb' 12 1).getLsbD (i - 31) := by
  change BitVec.getLsbD (w := 1 + 6 + 5 + 5 + 3 + 4 + 1 + 7) (imm.extractLsb' 12 1 ++ imm.extractLsb' 5 6 ++ rs2 ++ rs1 ++ f3 ++ imm.extractLsb' 1 4 ++ imm.extractLsb' 11 1 ++ op) i = _
  simp only [BitVec.getLsbD_append, Nat.sub_sub]
  repeat' split
  all_goals first | rfl | omega

theorem getLsbD_encodeU (imm : BitVec 20) (rd : Reg) (op : BitVec 7) (i : Nat) : (encodeU imm rd op).getLsbD i =
      if i < 7 then op.getLsbD i else if i < 12 then rd.getLsbD (i - 7) else imm.getLsbD (i - 12) := by
  change BitVec.getLsbD (w := 20 + 5 + 7) (imm ++ rd ++ op) i = _
  simp only [BitVec.getLsbD_append, Nat.sub_sub]
  repeat' split
  all_goals first | rfl | omega

theorem getLsbD_encodeJ (imm : BitVec 21) (rd : Reg) (op : BitVec 7) (i : Nat) : (encodeJ imm rd op).getLsbD i =
      if i < 7 then op.getLsbD i else if i < 12 then rd.getLsbD (i - 7) else if i < 20 then (imm.extractLsb' 12 8).getLsbD (i - 12) else
      if i < 21 then (imm.extractLsb' 11 1).getLsbD (i - 20) else if i < 31 then (imm.extractLsb' 1 10).getLsbD (i - 21) else (imm.extractLsb' 20 1).getLsbD (i - 31) := by
  change BitVec.getLsbD (w := 1 + 10 + 1 + 8 + 5 + 7) (imm.extractLsb' 20 1 ++ imm.extractLsb' 1 10 ++ imm.extractLsb' 11 1 ++ imm.extractLsb' 12 8 ++ rd ++ op) i = _
  simp only [BitVec.getLsbD_append, Nat.sub_sub]
  repeat' split
  all_goals first | rfl | omega

theorem getLsbD_encodeA (f5 : BitVec 5) (aq rl : Bool) (rs2 rs1 rd : Reg) (i : Nat) : (encodeA f5 aq rl rs2 rs1 rd).getLsbD i =
      if i < 7 then (0b0101111#7).getLsbD i else if i < 12 then rd.getLsbD (i - 7) else if i < 15 then (0b010#3).getLsbD (i - 12) else
      if i < 20 then rs1.getLsbD (i - 15) else if i < 25 then rs2.getLsbD (i - 20) else if i < 26 then (BitVec.ofBool rl).getLsbD (i - 25) else
      if i < 27 then (BitVec.ofBool aq).getLsbD (i - 26) else f5.getLsbD (i - 27) := by
  change BitVec.getLsbD (w := 5 + 1 + 1 + 5 + 5 + 3 + 5 + 7) (f5 ++ (BitVec.ofBool aq) ++ (BitVec.ofBool rl) ++ rs2 ++ rs1 ++ 0b010#3 ++ rd ++ 0b0101111#7) i = _
  simp only [BitVec.getLsbD_append, Nat.sub_sub]
  repeat' split
  all_goals first | rfl | omega

/-- A shift by an immediate, packed in the I layout, has the bits of the R layout with the shift amount at rs2: the two
layouts agree from bit 24 down (R81, R82). -/
@[simp] theorem encodeShift_eq (f7 : BitVec 7) (shamt : BitVec 5) (rs1 : Reg) (f3 : BitVec 3) (rd : Reg) (op : BitVec 7) :
    encodeShift f7 shamt rs1 f3 rd op = encodeR f7 shamt rs1 f3 rd op := by
  apply BitVec.eq_of_getLsbD_eq
  intro i hi
  rw [encodeShift, getLsbD_encodeI, getLsbD_encodeR, BitVec.getLsbD_append, Nat.sub_sub]
  repeat' split
  all_goals first | rfl | omega

@[simp] theorem fieldOpcode_encodeR (f7 : BitVec 7) (rs2 rs1 : Reg) (f3 : BitVec 3) (rd : Reg) (op : BitVec 7) :
    fieldOpcode (encodeR f7 rs2 rs1 f3 rd op) = op := by
  apply BitVec.eq_of_getLsbD_eq
  intro i hi
  rw [fieldOpcode, BitVec.getLsbD_extractLsb', getLsbD_encodeR]
  interval_cases i <;> rfl

@[simp] theorem fieldRd_encodeR (f7 : BitVec 7) (rs2 rs1 : Reg) (f3 : BitVec 3) (rd : Reg) (op : BitVec 7) :
    fieldRd (encodeR f7 rs2 rs1 f3 rd op) = rd := by
  apply BitVec.eq_of_getLsbD_eq
  intro i hi
  rw [fieldRd, BitVec.getLsbD_extractLsb', getLsbD_encodeR]
  interval_cases i <;> rfl

@[simp] theorem fieldFunct3_encodeR (f7 : BitVec 7) (rs2 rs1 : Reg) (f3 : BitVec 3) (rd : Reg) (op : BitVec 7) :
    fieldFunct3 (encodeR f7 rs2 rs1 f3 rd op) = f3 := by
  apply BitVec.eq_of_getLsbD_eq
  intro i hi
  rw [fieldFunct3, BitVec.getLsbD_extractLsb', getLsbD_encodeR]
  interval_cases i <;> rfl

@[simp] theorem fieldRs1_encodeR (f7 : BitVec 7) (rs2 rs1 : Reg) (f3 : BitVec 3) (rd : Reg) (op : BitVec 7) :
    fieldRs1 (encodeR f7 rs2 rs1 f3 rd op) = rs1 := by
  apply BitVec.eq_of_getLsbD_eq
  intro i hi
  rw [fieldRs1, BitVec.getLsbD_extractLsb', getLsbD_encodeR]
  interval_cases i <;> rfl

@[simp] theorem fieldRs2_encodeR (f7 : BitVec 7) (rs2 rs1 : Reg) (f3 : BitVec 3) (rd : Reg) (op : BitVec 7) :
    fieldRs2 (encodeR f7 rs2 rs1 f3 rd op) = rs2 := by
  apply BitVec.eq_of_getLsbD_eq
  intro i hi
  rw [fieldRs2, BitVec.getLsbD_extractLsb', getLsbD_encodeR]
  interval_cases i <;> rfl

@[simp] theorem fieldShamt_encodeR (f7 : BitVec 7) (rs2 rs1 : Reg) (f3 : BitVec 3) (rd : Reg) (op : BitVec 7) :
    fieldShamt (encodeR f7 rs2 rs1 f3 rd op) = rs2 := by
  apply BitVec.eq_of_getLsbD_eq
  intro i hi
  rw [fieldShamt, BitVec.getLsbD_extractLsb', getLsbD_encodeR]
  interval_cases i <;> rfl

@[simp] theorem fieldFunct7_encodeR (f7 : BitVec 7) (rs2 rs1 : Reg) (f3 : BitVec 3) (rd : Reg) (op : BitVec 7) :
    fieldFunct7 (encodeR f7 rs2 rs1 f3 rd op) = f7 := by
  apply BitVec.eq_of_getLsbD_eq
  intro i hi
  rw [fieldFunct7, BitVec.getLsbD_extractLsb', getLsbD_encodeR]
  interval_cases i <;> rfl

@[simp] theorem fieldOpcode_encodeI (imm : BitVec 12) (rs1 : Reg) (f3 : BitVec 3) (rd : Reg) (op : BitVec 7) :
    fieldOpcode (encodeI imm rs1 f3 rd op) = op := by
  apply BitVec.eq_of_getLsbD_eq
  intro i hi
  rw [fieldOpcode, BitVec.getLsbD_extractLsb', getLsbD_encodeI]
  interval_cases i <;> rfl

@[simp] theorem fieldRd_encodeI (imm : BitVec 12) (rs1 : Reg) (f3 : BitVec 3) (rd : Reg) (op : BitVec 7) :
    fieldRd (encodeI imm rs1 f3 rd op) = rd := by
  apply BitVec.eq_of_getLsbD_eq
  intro i hi
  rw [fieldRd, BitVec.getLsbD_extractLsb', getLsbD_encodeI]
  interval_cases i <;> rfl

@[simp] theorem fieldFunct3_encodeI (imm : BitVec 12) (rs1 : Reg) (f3 : BitVec 3) (rd : Reg) (op : BitVec 7) :
    fieldFunct3 (encodeI imm rs1 f3 rd op) = f3 := by
  apply BitVec.eq_of_getLsbD_eq
  intro i hi
  rw [fieldFunct3, BitVec.getLsbD_extractLsb', getLsbD_encodeI]
  interval_cases i <;> rfl

@[simp] theorem fieldRs1_encodeI (imm : BitVec 12) (rs1 : Reg) (f3 : BitVec 3) (rd : Reg) (op : BitVec 7) :
    fieldRs1 (encodeI imm rs1 f3 rd op) = rs1 := by
  apply BitVec.eq_of_getLsbD_eq
  intro i hi
  rw [fieldRs1, BitVec.getLsbD_extractLsb', getLsbD_encodeI]
  interval_cases i <;> rfl

@[simp] theorem fieldImmI_encodeI (imm : BitVec 12) (rs1 : Reg) (f3 : BitVec 3) (rd : Reg) (op : BitVec 7) :
    fieldImmI (encodeI imm rs1 f3 rd op) = imm := by
  apply BitVec.eq_of_getLsbD_eq
  intro i hi
  rw [fieldImmI, BitVec.getLsbD_extractLsb', getLsbD_encodeI]
  interval_cases i <;> rfl

@[simp] theorem fieldOpcode_encodeS (imm : BitVec 12) (rs2 rs1 : Reg) (f3 : BitVec 3) (op : BitVec 7) :
    fieldOpcode (encodeS imm rs2 rs1 f3 op) = op := by
  apply BitVec.eq_of_getLsbD_eq
  intro i hi
  rw [fieldOpcode, BitVec.getLsbD_extractLsb', getLsbD_encodeS]
  interval_cases i <;> rfl

@[simp] theorem fieldFunct3_encodeS (imm : BitVec 12) (rs2 rs1 : Reg) (f3 : BitVec 3) (op : BitVec 7) :
    fieldFunct3 (encodeS imm rs2 rs1 f3 op) = f3 := by
  apply BitVec.eq_of_getLsbD_eq
  intro i hi
  rw [fieldFunct3, BitVec.getLsbD_extractLsb', getLsbD_encodeS]
  interval_cases i <;> rfl

@[simp] theorem fieldRs1_encodeS (imm : BitVec 12) (rs2 rs1 : Reg) (f3 : BitVec 3) (op : BitVec 7) :
    fieldRs1 (encodeS imm rs2 rs1 f3 op) = rs1 := by
  apply BitVec.eq_of_getLsbD_eq
  intro i hi
  rw [fieldRs1, BitVec.getLsbD_extractLsb', getLsbD_encodeS]
  interval_cases i <;> rfl

@[simp] theorem fieldRs2_encodeS (imm : BitVec 12) (rs2 rs1 : Reg) (f3 : BitVec 3) (op : BitVec 7) :
    fieldRs2 (encodeS imm rs2 rs1 f3 op) = rs2 := by
  apply BitVec.eq_of_getLsbD_eq
  intro i hi
  rw [fieldRs2, BitVec.getLsbD_extractLsb', getLsbD_encodeS]
  interval_cases i <;> rfl

@[simp] theorem fieldOpcode_encodeB (imm : BitVec 13) (rs2 rs1 : Reg) (f3 : BitVec 3) (op : BitVec 7) :
    fieldOpcode (encodeB imm rs2 rs1 f3 op) = op := by
  apply BitVec.eq_of_getLsbD_eq
  intro i hi
  rw [fieldOpcode, BitVec.getLsbD_extractLsb', getLsbD_encodeB]
  interval_cases i <;> rfl

@[simp] theorem fieldFunct3_encodeB (imm : BitVec 13) (rs2 rs1 : Reg) (f3 : BitVec 3) (op : BitVec 7) :
    fieldFunct3 (encodeB imm rs2 rs1 f3 op) = f3 := by
  apply BitVec.eq_of_getLsbD_eq
  intro i hi
  rw [fieldFunct3, BitVec.getLsbD_extractLsb', getLsbD_encodeB]
  interval_cases i <;> rfl

@[simp] theorem fieldRs1_encodeB (imm : BitVec 13) (rs2 rs1 : Reg) (f3 : BitVec 3) (op : BitVec 7) :
    fieldRs1 (encodeB imm rs2 rs1 f3 op) = rs1 := by
  apply BitVec.eq_of_getLsbD_eq
  intro i hi
  rw [fieldRs1, BitVec.getLsbD_extractLsb', getLsbD_encodeB]
  interval_cases i <;> rfl

@[simp] theorem fieldRs2_encodeB (imm : BitVec 13) (rs2 rs1 : Reg) (f3 : BitVec 3) (op : BitVec 7) :
    fieldRs2 (encodeB imm rs2 rs1 f3 op) = rs2 := by
  apply BitVec.eq_of_getLsbD_eq
  intro i hi
  rw [fieldRs2, BitVec.getLsbD_extractLsb', getLsbD_encodeB]
  interval_cases i <;> rfl

@[simp] theorem fieldOpcode_encodeU (imm : BitVec 20) (rd : Reg) (op : BitVec 7) :
    fieldOpcode (encodeU imm rd op) = op := by
  apply BitVec.eq_of_getLsbD_eq
  intro i hi
  rw [fieldOpcode, BitVec.getLsbD_extractLsb', getLsbD_encodeU]
  interval_cases i <;> rfl

@[simp] theorem fieldRd_encodeU (imm : BitVec 20) (rd : Reg) (op : BitVec 7) :
    fieldRd (encodeU imm rd op) = rd := by
  apply BitVec.eq_of_getLsbD_eq
  intro i hi
  rw [fieldRd, BitVec.getLsbD_extractLsb', getLsbD_encodeU]
  interval_cases i <;> rfl

@[simp] theorem fieldImmU_encodeU (imm : BitVec 20) (rd : Reg) (op : BitVec 7) :
    fieldImmU (encodeU imm rd op) = imm := by
  apply BitVec.eq_of_getLsbD_eq
  intro i hi
  rw [fieldImmU, BitVec.getLsbD_extractLsb', getLsbD_encodeU]
  interval_cases i <;> rfl

@[simp] theorem fieldOpcode_encodeJ (imm : BitVec 21) (rd : Reg) (op : BitVec 7) :
    fieldOpcode (encodeJ imm rd op) = op := by
  apply BitVec.eq_of_getLsbD_eq
  intro i hi
  rw [fieldOpcode, BitVec.getLsbD_extractLsb', getLsbD_encodeJ]
  interval_cases i <;> rfl

@[simp] theorem fieldRd_encodeJ (imm : BitVec 21) (rd : Reg) (op : BitVec 7) :
    fieldRd (encodeJ imm rd op) = rd := by
  apply BitVec.eq_of_getLsbD_eq
  intro i hi
  rw [fieldRd, BitVec.getLsbD_extractLsb', getLsbD_encodeJ]
  interval_cases i <;> rfl

@[simp] theorem fieldOpcode_encodeA (f5 : BitVec 5) (aq rl : Bool) (rs2 rs1 rd : Reg) :
    fieldOpcode (encodeA f5 aq rl rs2 rs1 rd) = 0b0101111#7 := by
  apply BitVec.eq_of_getLsbD_eq
  intro i hi
  rw [fieldOpcode, BitVec.getLsbD_extractLsb', getLsbD_encodeA]
  interval_cases i <;> rfl

@[simp] theorem fieldRd_encodeA (f5 : BitVec 5) (aq rl : Bool) (rs2 rs1 rd : Reg) :
    fieldRd (encodeA f5 aq rl rs2 rs1 rd) = rd := by
  apply BitVec.eq_of_getLsbD_eq
  intro i hi
  rw [fieldRd, BitVec.getLsbD_extractLsb', getLsbD_encodeA]
  interval_cases i <;> rfl

@[simp] theorem fieldFunct3_encodeA (f5 : BitVec 5) (aq rl : Bool) (rs2 rs1 rd : Reg) :
    fieldFunct3 (encodeA f5 aq rl rs2 rs1 rd) = 0b010#3 := by
  apply BitVec.eq_of_getLsbD_eq
  intro i hi
  rw [fieldFunct3, BitVec.getLsbD_extractLsb', getLsbD_encodeA]
  interval_cases i <;> rfl

@[simp] theorem fieldRs1_encodeA (f5 : BitVec 5) (aq rl : Bool) (rs2 rs1 rd : Reg) :
    fieldRs1 (encodeA f5 aq rl rs2 rs1 rd) = rs1 := by
  apply BitVec.eq_of_getLsbD_eq
  intro i hi
  rw [fieldRs1, BitVec.getLsbD_extractLsb', getLsbD_encodeA]
  interval_cases i <;> rfl

@[simp] theorem fieldRs2_encodeA (f5 : BitVec 5) (aq rl : Bool) (rs2 rs1 rd : Reg) :
    fieldRs2 (encodeA f5 aq rl rs2 rs1 rd) = rs2 := by
  apply BitVec.eq_of_getLsbD_eq
  intro i hi
  rw [fieldRs2, BitVec.getLsbD_extractLsb', getLsbD_encodeA]
  interval_cases i <;> rfl

@[simp] theorem fieldFunct5_encodeA (f5 : BitVec 5) (aq rl : Bool) (rs2 rs1 rd : Reg) :
    fieldFunct5 (encodeA f5 aq rl rs2 rs1 rd) = f5 := by
  apply BitVec.eq_of_getLsbD_eq
  intro i hi
  rw [fieldFunct5, BitVec.getLsbD_extractLsb', getLsbD_encodeA]
  interval_cases i <;> rfl

@[simp] theorem fieldAq_encodeA (f5 : BitVec 5) (aq rl : Bool) (rs2 rs1 rd : Reg) : fieldAq (encodeA f5 aq rl rs2 rs1 rd) = aq := by
  rw [fieldAq, getLsbD_encodeA]
  cases aq <;> rfl

@[simp] theorem fieldRl_encodeA (f5 : BitVec 5) (aq rl : Bool) (rs2 rs1 rd : Reg) : fieldRl (encodeA f5 aq rl rs2 rs1 rd) = rl := by
  rw [fieldRl, getLsbD_encodeA]
  cases rl <;> rfl

/-! The immediates that are spread over the word. -/

theorem getLsbD_fieldImmS (w : Word) (i : Nat) :
    (fieldImmS w).getLsbD i = if i < 5 then (w.extractLsb' 7 5).getLsbD i else (w.extractLsb' 25 7).getLsbD (i - 5) := by
  change BitVec.getLsbD (w := 7 + 5) (w.extractLsb' 25 7 ++ w.extractLsb' 7 5) i = _
  simp only [BitVec.getLsbD_append]

theorem getLsbD_fieldImmB (w : Word) (i : Nat) :
    (fieldImmB w).getLsbD i =
      if i < 1 then false else if i < 5 then (w.extractLsb' 8 4).getLsbD (i - 1)
      else if i < 11 then (w.extractLsb' 25 6).getLsbD (i - 5)
      else if i < 12 then (w.extractLsb' 7 1).getLsbD (i - 11) else (w.extractLsb' 31 1).getLsbD (i - 12) := by
  change BitVec.getLsbD (w := 1 + 1 + 6 + 4 + 1)
    (w.extractLsb' 31 1 ++ w.extractLsb' 7 1 ++ w.extractLsb' 25 6 ++ w.extractLsb' 8 4 ++ 0#1) i = _
  simp only [BitVec.getLsbD_append, Nat.sub_sub, BitVec.getLsbD_zero]
  repeat' split
  all_goals first | rfl | omega

theorem getLsbD_fieldImmJ (w : Word) (i : Nat) :
    (fieldImmJ w).getLsbD i =
      if i < 1 then false else if i < 11 then (w.extractLsb' 21 10).getLsbD (i - 1)
      else if i < 12 then (w.extractLsb' 20 1).getLsbD (i - 11)
      else if i < 20 then (w.extractLsb' 12 8).getLsbD (i - 12) else (w.extractLsb' 31 1).getLsbD (i - 20) := by
  change BitVec.getLsbD (w := 1 + 8 + 1 + 10 + 1)
    (w.extractLsb' 31 1 ++ w.extractLsb' 12 8 ++ w.extractLsb' 20 1 ++ w.extractLsb' 21 10 ++ 0#1) i = _
  simp only [BitVec.getLsbD_append, Nat.sub_sub, BitVec.getLsbD_zero]
  repeat' split
  all_goals first | rfl | omega

@[simp] theorem fieldImmS_encodeS (imm : BitVec 12) (rs2 rs1 : Reg) (f3 : BitVec 3) (op : BitVec 7) : fieldImmS (encodeS imm rs2 rs1 f3 op) = imm := by
  apply BitVec.eq_of_getLsbD_eq
  intro i hi
  rw [getLsbD_fieldImmS]
  simp only [BitVec.getLsbD_extractLsb', getLsbD_encodeS]
  interval_cases i <;> rfl

/-- The B immediate comes back when its bit 0 is 0. -/
theorem fieldImmB_encodeB (imm : BitVec 13) (rs2 rs1 : Reg) (f3 : BitVec 3) (op : BitVec 7) (h : imm.getLsbD 0 = false) :
    fieldImmB (encodeB imm rs2 rs1 f3 op) = imm := by
  apply BitVec.eq_of_getLsbD_eq
  intro i hi
  rw [getLsbD_fieldImmB]
  simp only [BitVec.getLsbD_extractLsb', getLsbD_encodeB]
  interval_cases i
  · exact h.symm
  all_goals rfl

/-- The J immediate comes back when its bit 0 is 0. -/
theorem fieldImmJ_encodeJ (imm : BitVec 21) (rd : Reg) (op : BitVec 7) (h : imm.getLsbD 0 = false) :
    fieldImmJ (encodeJ imm rd op) = imm := by
  apply BitVec.eq_of_getLsbD_eq
  intro i hi
  rw [getLsbD_fieldImmJ]
  simp only [BitVec.getLsbD_extractLsb', getLsbD_encodeJ]
  interval_cases i
  · exact h.symm
  all_goals rfl

/-- The decoder's branch immediate has bit 0 equal to 0 (R85). -/
@[simp] theorem fieldImmB_getLsbD_zero (w : Word) : (fieldImmB w)[0] = false := by
  rw [← BitVec.getLsbD_eq_getElem, getLsbD_fieldImmB]; rfl

/-- The decoder's JAL immediate has bit 0 equal to 0 (R87). -/
@[simp] theorem fieldImmJ_getLsbD_zero (w : Word) : (fieldImmJ w)[0] = false := by
  rw [← BitVec.getLsbD_eq_getElem, getLsbD_fieldImmJ]; rfl

/-! A word is made of its fields. -/

theorem encodeR_fields (w : Word) : encodeR (fieldFunct7 w) (fieldRs2 w) (fieldRs1 w) (fieldFunct3 w) (fieldRd w) (fieldOpcode w) = w := by
  apply BitVec.eq_of_getLsbD_eq
  intro i hi
  rw [getLsbD_encodeR]
  simp only [fieldFunct7, fieldRs2, fieldRs1, fieldFunct3, fieldRd, fieldOpcode, BitVec.getLsbD_extractLsb']
  interval_cases i <;> rfl

theorem encodeI_fields (w : Word) : encodeI (fieldImmI w) (fieldRs1 w) (fieldFunct3 w) (fieldRd w) (fieldOpcode w) = w := by
  apply BitVec.eq_of_getLsbD_eq
  intro i hi
  rw [getLsbD_encodeI]
  simp only [fieldImmI, fieldRs1, fieldFunct3, fieldRd, fieldOpcode, BitVec.getLsbD_extractLsb']
  interval_cases i <;> rfl

theorem encodeS_fields (w : Word) : encodeS (fieldImmS w) (fieldRs2 w) (fieldRs1 w) (fieldFunct3 w) (fieldOpcode w) = w := by
  apply BitVec.eq_of_getLsbD_eq
  intro i hi
  rw [getLsbD_encodeS]
  simp only [fieldRs2, fieldRs1, fieldFunct3, fieldOpcode, BitVec.getLsbD_extractLsb', getLsbD_fieldImmS]
  interval_cases i <;> rfl

theorem encodeB_fields (w : Word) : encodeB (fieldImmB w) (fieldRs2 w) (fieldRs1 w) (fieldFunct3 w) (fieldOpcode w) = w := by
  apply BitVec.eq_of_getLsbD_eq
  intro i hi
  rw [getLsbD_encodeB]
  simp only [fieldRs2, fieldRs1, fieldFunct3, fieldOpcode, BitVec.getLsbD_extractLsb', getLsbD_fieldImmB]
  interval_cases i <;> rfl

theorem encodeU_fields (w : Word) : encodeU (fieldImmU w) (fieldRd w) (fieldOpcode w) = w := by
  apply BitVec.eq_of_getLsbD_eq
  intro i hi
  rw [getLsbD_encodeU]
  simp only [fieldImmU, fieldRd, fieldOpcode, BitVec.getLsbD_extractLsb']
  interval_cases i <;> rfl

theorem encodeJ_fields (w : Word) : encodeJ (fieldImmJ w) (fieldRd w) (fieldOpcode w) = w := by
  apply BitVec.eq_of_getLsbD_eq
  intro i hi
  rw [getLsbD_encodeJ]
  simp only [fieldRd, fieldOpcode, BitVec.getLsbD_extractLsb', getLsbD_fieldImmJ]
  interval_cases i <;> rfl

theorem encodeA_fields (w : Word) (h3 : fieldFunct3 w = 0b010#3) (ho : fieldOpcode w = 0b0101111#7) :
    encodeA (fieldFunct5 w) (fieldAq w) (fieldRl w) (fieldRs2 w) (fieldRs1 w) (fieldRd w) = w := by
  apply BitVec.eq_of_getLsbD_eq
  intro i hi
  rw [getLsbD_encodeA, ← h3, ← ho]
  simp only [fieldFunct5, fieldAq, fieldRl, fieldRs2, fieldRs1, fieldFunct3, fieldRd, fieldOpcode,
    BitVec.getLsbD_extractLsb', BitVec.getLsbD_ofBool]
  interval_cases i <;> simp

/-! Masked words: what a row's mask leaves of a layout. -/

theorem encodeR_masked (f7 : BitVec 7) (rs2 rs1 : Reg) (f3 : BitVec 3) (rd : Reg) (op : BitVec 7) :
    encodeR f7 rs2 rs1 f3 rd op &&& 0xFE00707F#32 = encodeR f7 0#5 0#5 f3 0#5 op := by
  apply BitVec.eq_of_getLsbD_eq
  intro i hi
  rw [BitVec.getLsbD_and, getLsbD_encodeR, getLsbD_encodeR]
  interval_cases i <;> simp

theorem encodeI_masked (imm : BitVec 12) (rs1 : Reg) (f3 : BitVec 3) (rd : Reg) (op : BitVec 7) :
    encodeI imm rs1 f3 rd op &&& 0x0000707F#32 = encodeI 0#12 0#5 f3 0#5 op := by
  apply BitVec.eq_of_getLsbD_eq
  intro i hi
  rw [BitVec.getLsbD_and, getLsbD_encodeI, getLsbD_encodeI]
  interval_cases i <;> simp

theorem encodeI_masked_system (imm : BitVec 12) (rs1 : Reg) (f3 : BitVec 3) (rd : Reg) (op : BitVec 7) :
    encodeI imm rs1 f3 rd op &&& 0xFFF0707F#32 = encodeI imm 0#5 f3 0#5 op := by
  apply BitVec.eq_of_getLsbD_eq
  intro i hi
  rw [BitVec.getLsbD_and, getLsbD_encodeI, getLsbD_encodeI]
  interval_cases i <;> simp

theorem encodeS_masked (imm : BitVec 12) (rs2 rs1 : Reg) (f3 : BitVec 3) (op : BitVec 7) :
    encodeS imm rs2 rs1 f3 op &&& 0x0000707F#32 = encodeS 0#12 0#5 0#5 f3 op := by
  apply BitVec.eq_of_getLsbD_eq
  intro i hi
  rw [BitVec.getLsbD_and, getLsbD_encodeS, getLsbD_encodeS]
  interval_cases i <;> simp

theorem encodeB_masked (imm : BitVec 13) (rs2 rs1 : Reg) (f3 : BitVec 3) (op : BitVec 7) :
    encodeB imm rs2 rs1 f3 op &&& 0x0000707F#32 = encodeB 0#13 0#5 0#5 f3 op := by
  apply BitVec.eq_of_getLsbD_eq
  intro i hi
  rw [BitVec.getLsbD_and, getLsbD_encodeB, getLsbD_encodeB]
  interval_cases i <;> simp

theorem encodeU_masked (imm : BitVec 20) (rd : Reg) (op : BitVec 7) :
    encodeU imm rd op &&& 0x0000007F#32 = encodeU 0#20 0#5 op := by
  apply BitVec.eq_of_getLsbD_eq
  intro i hi
  rw [BitVec.getLsbD_and, getLsbD_encodeU, getLsbD_encodeU]
  interval_cases i <;> simp

theorem encodeJ_masked (imm : BitVec 21) (rd : Reg) (op : BitVec 7) :
    encodeJ imm rd op &&& 0x0000007F#32 = encodeJ 0#21 0#5 op := by
  apply BitVec.eq_of_getLsbD_eq
  intro i hi
  rw [BitVec.getLsbD_and, getLsbD_encodeJ, getLsbD_encodeJ]
  interval_cases i <;> simp

theorem encodeA_masked (f5 : BitVec 5) (aq rl : Bool) (rs2 rs1 rd : Reg) :
    encodeA f5 aq rl rs2 rs1 rd &&& 0xF800707F#32 = encodeA f5 false false 0#5 0#5 0#5 := by
  apply BitVec.eq_of_getLsbD_eq
  intro i hi
  rw [BitVec.getLsbD_and, getLsbD_encodeA, getLsbD_encodeA]
  interval_cases i <;> simp

/-! From a row's mask to the fields. -/

/-- Masking commutes with reading a field. -/
theorem extractLsb'_masked (w m b : Word) (lo n : Nat) (h : w &&& m = b)
    (hm : m.extractLsb' lo n = BitVec.allOnes n) : w.extractLsb' lo n = b.extractLsb' lo n := by
  rw [← h]
  apply BitVec.eq_of_getLsbD_eq
  intro i hi
  have := congrArg (fun v => v.getLsbD i) hm
  simp only [BitVec.getLsbD_extractLsb', BitVec.getLsbD_and, BitVec.getLsbD_allOnes, hi, decide_true,
    Bool.true_and] at this ⊢
  rw [this, Bool.and_true]

/-- The rows of the opcode table are pairwise disjoint: each two differ in a bit that both masks cover (R98). -/
theorem opcodeRows_disjoint :
    opcodeRows.Pairwise fun r q => r.bits &&& (r.mask &&& q.mask) ≠ q.bits &&& (r.mask &&& q.mask) := by
  decide +kernel

theorem opcodeRows_length : opcodeRows.length = 56 := by decide

end Sys2Proof
end

