-- ==== Sys2Proof/Laws/Format.lean ====
section
/-! SUPPORT. The format of an instruction (00_scope.md R16, 30_encoding.md R81): what it assembles as its immediate from
the encoded word is what the meanings use. -/

namespace Sys2Proof.Laws

open Sys2Proof.Machine

@[simp] theorem immediate_encodeI (imm : BitVec 12) (rs1 : Reg) (f3 : BitVec 3) (rd : Reg) (op : BitVec 7) :
    InstrFormat.immediate (encodeI imm rs1 f3 rd op) .i = some (sextImm imm) := by
  simp [InstrFormat.immediate, sextImm]

@[simp] theorem immediate_encodeS (imm : BitVec 12) (rs2 rs1 : Reg) (f3 : BitVec 3) (op : BitVec 7) :
    InstrFormat.immediate (encodeS imm rs2 rs1 f3 op) .s = some (sextImm imm) := by
  simp [InstrFormat.immediate, sextImm]

theorem immediate_encodeB (imm : BitVec 13) (rs2 rs1 : Reg) (f3 : BitVec 3) (op : BitVec 7)
    (h : imm.getLsbD 0 = false) : InstrFormat.immediate (encodeB imm rs2 rs1 f3 op) .b = some (sextImm imm) := by
  rw [InstrFormat.immediate, fieldImmB_encodeB _ _ _ _ _ h, sextImm]

@[simp] theorem immediate_encodeU (imm : BitVec 20) (rd : Reg) (op : BitVec 7) :
    InstrFormat.immediate (encodeU imm rd op) .u = some (upperImm imm) := by
  simp [InstrFormat.immediate, upperImm]

theorem immediate_encodeJ (imm : BitVec 21) (rd : Reg) (op : BitVec 7) (h : imm.getLsbD 0 = false) :
    InstrFormat.immediate (encodeJ imm rd op) .j = some (sextImm imm) := by
  rw [InstrFormat.immediate, fieldImmJ_encodeJ _ _ _ h, sextImm]

/-- The format assembles an immediate exactly when it is neither R nor AtomicR (R81). -/
theorem immediate_eq_none_iff (w : Word) (f : InstrFormat) :
    f.immediate w = none ↔ f = .r ∨ f = .atomicR := by
  cases f <;> simp [InstrFormat.immediate]

end Sys2Proof.Laws
end

