-- ==== Sys2Proof/Laws/Memory.lean ====
section
/-! SUPPORT. The laws of memory: reading after writing, and the canonical form kept by every operation. -/

namespace Sys2Proof.Machine.Memory

variable (m : Memory) (a b n : Nat) (u v : Byte)

@[simp] theorem lookup_nil : lookup [] a = none := rfl

/-- A read after a write to the same address gives the value written. -/
@[simp] theorem lookup_write_same : lookup (write m a v) a = some v := by
  induction m with
  | nil => simp [write, lookup]
  | cons p t ih =>
    obtain ⟨b, u⟩ := p
    by_cases h : a < b
    · simp [write, lookup, h]
    · by_cases e : a = b
      · simp [write, lookup, e]
      · simp [write, lookup, h, e, ih]

/-- A write leaves every other address alone. -/
theorem lookup_write_other (h : b ≠ a) : lookup (write m a v) b = lookup m b := by
  induction m with
  | nil => simp [write, lookup, h, unlisted]
  | cons p t ih =>
    obtain ⟨c, u⟩ := p
    by_cases hl : a < c
    · simp [write, lookup, hl, h]
    · by_cases e : a = c
      · subst e; simp [write, lookup, h]
      · simp [write, lookup, hl, e, ih]

@[simp] theorem byte_write_same : byte (write m a v) a = v := by simp [byte]

theorem byte_write_other (h : b ≠ a) : byte (write m a v) b = byte m b := by
  simp [byte, lookup_write_other m a b v h]

/-- The addresses listed after a write are the written one and those listed before. -/
theorem mem_write {p : Host.Cell} (h : p ∈ write m a v) : p = (a, v) ∨ p ∈ m := by
  induction m with
  | nil => simpa [write] using h
  | cons q t ih =>
    obtain ⟨c, u⟩ := q
    by_cases hl : a < c
    · simpa [write, hl] using h
    · by_cases e : a = c
      · subst e
        simp only [write, lt_irrefl, if_false, if_true, List.mem_cons] at h ⊢
        tauto
      · simp only [write, hl, e, if_false, List.mem_cons] at h ⊢
        rcases h with h | h
        · exact Or.inr (Or.inl h)
        · rcases ih h with h | h
          · exact Or.inl h
          · exact Or.inr (Or.inr h)

/-- Every entry of a memory in canonical form is some byte, which no unlisted address holds. -/
theorem wf_iff : wf m ↔ List.Pairwise (fun p q : Host.Cell => p.1 < q.1) m := by
  simp [wf, unlisted]

theorem wf_nil : wf [] := by simp [wf_iff]

/-- A write keeps the canonical form. -/
theorem wf_write (h : wf m) : wf (write m a v) := by
  rw [wf_iff] at h ⊢
  induction m with
  | nil => simp [write]
  | cons p t ih =>
    obtain ⟨c, u⟩ := p
    rw [List.pairwise_cons] at h
    by_cases hl : a < c
    · rw [write, if_pos hl, List.pairwise_cons, List.pairwise_cons]
      refine ⟨fun q hq => ?_, h⟩
      rcases List.mem_cons.1 hq with rfl | hq
      · exact hl
      · exact lt_trans hl (h.1 q hq)
    · by_cases e : a = c
      · subst e
        rw [write, if_neg hl, if_pos rfl, List.pairwise_cons]
        exact h
      · rw [write, if_neg hl, if_neg e, List.pairwise_cons]
        refine ⟨fun q hq => ?_, ih h.2⟩
        rcases mem_write t a v hq with rfl | hq
        · change c < a; omega
        · exact h.1 q hq

/-- A multi-byte store keeps the canonical form. -/
theorem wf_storeLE (k : Nat) (h : wf m) : wf (storeLE m a n k) := by
  induction n generalizing m a k with
  | zero => exact h
  | succ n ih => exact ih (write m a _) (a + 1) _ (wf_write m a _ h)

/-- A byte-sequence store keeps the canonical form. -/
theorem wf_storeBytes (vs : List Byte) (h : wf m) : wf (storeBytes m a vs) := by
  induction vs generalizing m a with
  | nil => exact h
  | cons w ws ih => exact ih (write m a w) (a + 1) (wf_write m a w h)

/-- The entries after a multi-byte store lie in the stored range or were there before. -/
theorem mem_storeLE (k : Nat) {p : Host.Cell} (h : p ∈ storeLE m a n k) : (a ≤ p.1 ∧ p.1 < a + n) ∨ p ∈ m := by
  induction n generalizing m a k with
  | zero => exact Or.inr h
  | succ n ih =>
    rcases ih _ (a + 1) _ h with h | h
    · left; omega
    · rcases mem_write m a _ h with rfl | h
      · left; simp only; omega
      · exact Or.inr h

/-- The entries after a byte-sequence store lie in the stored range or were there before. -/
theorem mem_storeBytes (vs : List Byte) {p : Host.Cell} (h : p ∈ storeBytes m a vs) :
    (a ≤ p.1 ∧ p.1 < a + vs.length) ∨ p ∈ m := by
  induction vs generalizing m a with
  | nil => exact Or.inr h
  | cons w ws ih =>
    rcases ih _ (a + 1) h with h | h
    · left; simp only [List.length_cons]; omega
    · rcases mem_write m a w h with rfl | h
      · left; simp only [List.length_cons]; omega
      · exact Or.inr h

/-- A byte outside the stored range reads as before. -/
theorem byte_storeLE_outside (k : Nat) (h : b < a ∨ a + n ≤ b) : byte (storeLE m a n k) b = byte m b := by
  induction n generalizing m a k with
  | zero => rfl
  | succ n ih =>
    rw [storeLE, ih _ _ _ (by omega), byte_write_other _ _ _ _ (by omega)]

/-- Byte `j` of a stored value is its bits `8j` and up. -/
theorem byte_storeLE_inside (k j : Nat) (h : j < n) :
    byte (storeLE m a n k) (a + j) = BitVec.ofNat 8 (k / 2 ^ (8 * j)) := by
  induction n generalizing m a k j with
  | zero => omega
  | succ n ih =>
    rw [storeLE]
    cases j with
    | zero => rw [byte_storeLE_outside _ _ _ _ _ (by omega)]; simp
    | succ j =>
      rw [show a + (j + 1) = a + 1 + j by omega, ih _ _ _ _ (by omega), Nat.div_div_eq_div_mul, ← Nat.pow_add,
        show 8 + 8 * j = 8 * (j + 1) by omega]

/-- A byte outside a stored sequence reads as before. -/
theorem byte_storeBytes_outside (vs : List Byte) (h : b < a ∨ a + vs.length ≤ b) :
    byte (storeBytes m a vs) b = byte m b := by
  induction vs generalizing m a with
  | nil => rfl
  | cons w ws ih =>
    simp only [List.length_cons] at h
    rw [storeBytes, ih _ _ (by omega), byte_write_other _ _ _ _ (by omega)]

/-- Reading back a stored sequence. -/
theorem bytes_storeBytes (vs : List Byte) : bytes (storeBytes m a vs) a vs.length = vs := by
  induction vs generalizing m a with
  | nil => rfl
  | cons w ws ih =>
    rw [storeBytes, List.length_cons, bytes, ih, byte_storeBytes_outside _ _ _ _ (by omega), byte_write_same]

/-- A load of `n` bytes is below `2^(8n)`. -/
theorem loadLE_lt : loadLE m a n < 2 ^ (8 * n) := by
  induction n generalizing a with
  | zero => simp [loadLE]
  | succ n ih =>
    have h1 := ih (a + 1)
    have h2 := (byte m a).isLt
    rw [loadLE, show 8 * (n + 1) = 8 + 8 * n by omega, Nat.pow_add]
    have : 2 ^ 8 * loadLE m (a + 1) n + 2 ^ 8 ≤ 2 ^ 8 * 2 ^ (8 * n) := by
      rw [← Nat.mul_succ]; exact Nat.mul_le_mul_left _ h1
    omega

/-- A load depends on the bytes it reads only. -/
theorem loadLE_congr {m₁ m₂ : Memory} (h : ∀ j, j < n → byte m₁ (a + j) = byte m₂ (a + j)) :
    loadLE m₁ a n = loadLE m₂ a n := by
  induction n generalizing a with
  | zero => rfl
  | succ n ih =>
    rw [loadLE, loadLE, ih (a + 1) (fun j hj => by
      have := h (j + 1) (by omega)
      rwa [show a + (j + 1) = a + 1 + j by omega] at this)]
    have := h 0 (by omega)
    rw [Nat.add_zero] at this
    rw [this]

/-- A load after a store to the same bytes gives the low bytes of the value stored. -/
theorem loadLE_storeLE (k : Nat) : loadLE (storeLE m a n k) a n = k % 2 ^ (8 * n) := by
  induction n generalizing m a k with
  | zero => simp [loadLE, Nat.mod_one]
  | succ n ih =>
    rw [storeLE, loadLE, ih, byte_storeLE_outside _ _ _ _ _ (by omega), byte_write_same]
    rw [show 8 * (n + 1) = 8 + 8 * n by omega, Nat.pow_add, Nat.mod_mul]
    simp

/-- The bytes that `bytes` lists. -/
theorem bytes_length : (bytes m a n).length = n := by
  induction n generalizing a with
  | zero => rfl
  | succ n ih => simp [bytes, ih]

end Sys2Proof.Machine.Memory
end

