-- ==== Sys2Proof/Laws/State.lean ====
section
/-! SUPPORT. One lemma for each field of each update of State, true by rfl, so that no proof unfolds an update. -/

namespace Sys2Proof.Machine.State

variable (s : State)

@[simp] theorem setPc_cfg (t : Word) : (s.setPc t).cfg = s.cfg := rfl
@[simp] theorem setPc_cpuState (t : Word) : (s.setPc t).cpuState = s.cpuState := rfl
@[simp] theorem setPc_taskId (t : Word) : (s.setPc t).taskId = s.taskId := rfl
@[simp] theorem setPc_mem (t : Word) : (s.setPc t).mem = s.mem := rfl
@[simp] theorem setPc_report (t : Word) : (s.setPc t).report = s.report := rfl
@[simp] theorem setPc_draws (t : Word) : (s.setPc t).draws = s.draws := rfl
@[simp] theorem setPc_ctx_pc (t : Word) : (s.setPc t).ctx.pc = t := rfl
@[simp] theorem setPc_ctx_ir (t : Word) : (s.setPc t).ctx.ir = s.ctx.ir := rfl
@[simp] theorem setPc_ctx_x (t : Word) : (s.setPc t).ctx.x = s.ctx.x := rfl
@[simp] theorem setPc_ctx_resv (t : Word) : (s.setPc t).ctx.resv = s.ctx.resv := rfl

@[simp] theorem setIr_cfg (w : Word) : (s.setIr w).cfg = s.cfg := rfl
@[simp] theorem setIr_cpuState (w : Word) : (s.setIr w).cpuState = s.cpuState := rfl
@[simp] theorem setIr_taskId (w : Word) : (s.setIr w).taskId = s.taskId := rfl
@[simp] theorem setIr_mem (w : Word) : (s.setIr w).mem = s.mem := rfl
@[simp] theorem setIr_report (w : Word) : (s.setIr w).report = s.report := rfl
@[simp] theorem setIr_draws (w : Word) : (s.setIr w).draws = s.draws := rfl
@[simp] theorem setIr_ctx_pc (w : Word) : (s.setIr w).ctx.pc = s.ctx.pc := rfl
@[simp] theorem setIr_ctx_ir (w : Word) : (s.setIr w).ctx.ir = w := rfl
@[simp] theorem setIr_ctx_x (w : Word) : (s.setIr w).ctx.x = s.ctx.x := rfl
@[simp] theorem setIr_ctx_resv (w : Word) : (s.setIr w).ctx.resv = s.ctx.resv := rfl

@[simp] theorem setX_cfg (x : Vector Word 32) : (s.setX x).cfg = s.cfg := rfl
@[simp] theorem setX_cpuState (x : Vector Word 32) : (s.setX x).cpuState = s.cpuState := rfl
@[simp] theorem setX_taskId (x : Vector Word 32) : (s.setX x).taskId = s.taskId := rfl
@[simp] theorem setX_mem (x : Vector Word 32) : (s.setX x).mem = s.mem := rfl
@[simp] theorem setX_report (x : Vector Word 32) : (s.setX x).report = s.report := rfl
@[simp] theorem setX_draws (x : Vector Word 32) : (s.setX x).draws = s.draws := rfl
@[simp] theorem setX_ctx_pc (x : Vector Word 32) : (s.setX x).ctx.pc = s.ctx.pc := rfl
@[simp] theorem setX_ctx_ir (x : Vector Word 32) : (s.setX x).ctx.ir = s.ctx.ir := rfl
@[simp] theorem setX_ctx_x (x : Vector Word 32) : (s.setX x).ctx.x = x := rfl
@[simp] theorem setX_ctx_resv (x : Vector Word 32) : (s.setX x).ctx.resv = s.ctx.resv := rfl

@[simp] theorem setResv_cfg (r : Option Word) : (s.setResv r).cfg = s.cfg := rfl
@[simp] theorem setResv_cpuState (r : Option Word) : (s.setResv r).cpuState = s.cpuState := rfl
@[simp] theorem setResv_taskId (r : Option Word) : (s.setResv r).taskId = s.taskId := rfl
@[simp] theorem setResv_mem (r : Option Word) : (s.setResv r).mem = s.mem := rfl
@[simp] theorem setResv_report (r : Option Word) : (s.setResv r).report = s.report := rfl
@[simp] theorem setResv_draws (r : Option Word) : (s.setResv r).draws = s.draws := rfl
@[simp] theorem setResv_ctx_pc (r : Option Word) : (s.setResv r).ctx.pc = s.ctx.pc := rfl
@[simp] theorem setResv_ctx_ir (r : Option Word) : (s.setResv r).ctx.ir = s.ctx.ir := rfl
@[simp] theorem setResv_ctx_x (r : Option Word) : (s.setResv r).ctx.x = s.ctx.x := rfl
@[simp] theorem setResv_ctx_resv (r : Option Word) : (s.setResv r).ctx.resv = r := rfl

@[simp] theorem setMem_cfg (m : Memory) : (s.setMem m).cfg = s.cfg := rfl
@[simp] theorem setMem_cpuState (m : Memory) : (s.setMem m).cpuState = s.cpuState := rfl
@[simp] theorem setMem_taskId (m : Memory) : (s.setMem m).taskId = s.taskId := rfl
@[simp] theorem setMem_mem (m : Memory) : (s.setMem m).mem = m := rfl
@[simp] theorem setMem_report (m : Memory) : (s.setMem m).report = s.report := rfl
@[simp] theorem setMem_draws (m : Memory) : (s.setMem m).draws = s.draws := rfl
@[simp] theorem setMem_ctx_pc (m : Memory) : (s.setMem m).ctx.pc = s.ctx.pc := rfl
@[simp] theorem setMem_ctx_ir (m : Memory) : (s.setMem m).ctx.ir = s.ctx.ir := rfl
@[simp] theorem setMem_ctx_x (m : Memory) : (s.setMem m).ctx.x = s.ctx.x := rfl
@[simp] theorem setMem_ctx_resv (m : Memory) : (s.setMem m).ctx.resv = s.ctx.resv := rfl

@[simp] theorem setReport_cfg (r : Option Report) : (s.setReport r).cfg = s.cfg := rfl
@[simp] theorem setReport_cpuState (r : Option Report) : (s.setReport r).cpuState = s.cpuState := rfl
@[simp] theorem setReport_taskId (r : Option Report) : (s.setReport r).taskId = s.taskId := rfl
@[simp] theorem setReport_mem (r : Option Report) : (s.setReport r).mem = s.mem := rfl
@[simp] theorem setReport_report (r : Option Report) : (s.setReport r).report = r := rfl
@[simp] theorem setReport_draws (r : Option Report) : (s.setReport r).draws = s.draws := rfl
@[simp] theorem setReport_ctx_pc (r : Option Report) : (s.setReport r).ctx.pc = s.ctx.pc := rfl
@[simp] theorem setReport_ctx_ir (r : Option Report) : (s.setReport r).ctx.ir = s.ctx.ir := rfl
@[simp] theorem setReport_ctx_x (r : Option Report) : (s.setReport r).ctx.x = s.ctx.x := rfl
@[simp] theorem setReport_ctx_resv (r : Option Report) : (s.setReport r).ctx.resv = s.ctx.resv := rfl

@[simp] theorem detached_cfg : s.detached.cfg = s.cfg := rfl
@[simp] theorem detached_cpuState : s.detached.cpuState = .vacant := rfl
@[simp] theorem detached_taskId : s.detached.taskId = none := rfl
@[simp] theorem detached_mem : s.detached.mem = s.mem := rfl
@[simp] theorem detached_report : s.detached.report = s.report := rfl
@[simp] theorem detached_draws : s.detached.draws = s.draws := rfl
@[simp] theorem detached_ctx_pc : s.detached.ctx.pc = s.ctx.pc := rfl
@[simp] theorem detached_ctx_ir : s.detached.ctx.ir = s.ctx.ir := rfl
@[simp] theorem detached_ctx_x : s.detached.ctx.x = s.ctx.x := rfl
@[simp] theorem detached_ctx_resv : s.detached.ctx.resv = s.ctx.resv := rfl

/-! The parts of the state after reset. -/

@[simp] theorem reset_cpuState : State.reset.cpuState = .vacant := rfl
@[simp] theorem reset_taskId : State.reset.taskId = none := rfl
@[simp] theorem reset_mem : State.reset.mem = [] := rfl
@[simp] theorem reset_report : State.reset.report = none := rfl
@[simp] theorem reset_cfg : State.reset.cfg = Config.default := rfl
@[simp] theorem reset_ctx_resv : State.reset.ctx.resv = none := rfl
@[simp] theorem reset_ctx_pc : State.reset.ctx.pc = Config.default.entry := rfl

end Sys2Proof.Machine.State
end

