-- ==== Sys2Proof/Laws/Ops.lean ====
section
/-! SUPPORT. One specification lemma for each shared operation of Machine/Ops.lean. -/

namespace Sys2Proof.Machine

variable (s t : State) (rd i : Reg) (v a : Word) (n : Nat)

/-! ## Registers -/

@[simp] theorem Context.readReg_zero (c : Context) : c.readReg 0#5 = 0#32 := rfl

/-- A register read after a register write (R21, R22). -/
theorem Context.readReg_writeReg (c : Context) :
    (c.writeReg rd v).readReg i = if i = 0#5 then 0#32 else if i = rd then v else c.readReg i := by
  by_cases hi : i = 0#5
  · simp [readReg, hi]
  · by_cases hr : rd = 0#5
    · have : i ≠ rd := fun e => hi (e.trans hr)
      simp [writeReg, hr, hi, readReg]
    · simp only [writeReg, hr, if_false, readReg, hi, Vector.getElem_set]
      by_cases e : i = rd
      · simp [e]
      · have : rd.toNat ≠ i.toNat := fun h => e (BitVec.eq_of_toNat_eq h.symm)
        simp [e, this]

@[simp] theorem Context.writeReg_zero (c : Context) : c.writeReg 0#5 v = c := rfl

@[simp] theorem Context.writeReg_pc (c : Context) : (c.writeReg rd v).pc = c.pc := by
  unfold Context.writeReg; split <;> rfl
@[simp] theorem Context.writeReg_ir (c : Context) : (c.writeReg rd v).ir = c.ir := by
  unfold Context.writeReg; split <;> rfl
@[simp] theorem Context.writeReg_resv (c : Context) : (c.writeReg rd v).resv = c.resv := by
  unfold Context.writeReg; split <;> rfl

@[simp] theorem State.readReg_zero : s.readReg 0#5 = 0#32 := rfl
@[simp] theorem State.writeReg_zero : s.writeReg 0#5 v = s := rfl

theorem State.readReg_writeReg :
    (s.writeReg rd v).readReg i = if i = 0#5 then 0#32 else if i = rd then v else s.readReg i :=
  Context.readReg_writeReg rd i v s.ctx

@[simp] theorem State.writeReg_cfg : (s.writeReg rd v).cfg = s.cfg := rfl
@[simp] theorem State.writeReg_cpuState : (s.writeReg rd v).cpuState = s.cpuState := rfl
@[simp] theorem State.writeReg_taskId : (s.writeReg rd v).taskId = s.taskId := rfl
@[simp] theorem State.writeReg_mem : (s.writeReg rd v).mem = s.mem := rfl
@[simp] theorem State.writeReg_report : (s.writeReg rd v).report = s.report := rfl
@[simp] theorem State.writeReg_draws : (s.writeReg rd v).draws = s.draws := rfl
@[simp] theorem State.writeReg_pc : (s.writeReg rd v).ctx.pc = s.ctx.pc := Context.writeReg_pc ..
@[simp] theorem State.writeReg_ir : (s.writeReg rd v).ctx.ir = s.ctx.ir := Context.writeReg_ir ..
@[simp] theorem State.writeReg_resv : (s.writeReg rd v).ctx.resv = s.ctx.resv := Context.writeReg_resv ..

@[simp] theorem State.readReg_setPc : (s.setPc a).readReg i = s.readReg i := rfl
@[simp] theorem State.readReg_setIr : (s.setIr a).readReg i = s.readReg i := rfl
@[simp] theorem State.readReg_setResv (r : Option Word) : (s.setResv r).readReg i = s.readReg i := rfl
@[simp] theorem State.readReg_setMem (m : Memory) : (s.setMem m).readReg i = s.readReg i := rfl
@[simp] theorem State.readReg_setReport (r : Option Report) : (s.setReport r).readReg i = s.readReg i := rfl
@[simp] theorem State.readReg_detached : s.detached.readReg i = s.readReg i := rfl

/-! ## Memory -/

@[simp] theorem State.byteAt_setPc (b : Nat) : (s.setPc a).byteAt b = s.byteAt b := rfl
@[simp] theorem State.byteAt_setIr (b : Nat) : (s.setIr a).byteAt b = s.byteAt b := rfl
@[simp] theorem State.byteAt_setResv (b : Nat) (r : Option Word) : (s.setResv r).byteAt b = s.byteAt b := rfl
@[simp] theorem State.byteAt_setReport (b : Nat) (r : Option Report) : (s.setReport r).byteAt b = s.byteAt b := rfl
@[simp] theorem State.byteAt_detached (b : Nat) : s.detached.byteAt b = s.byteAt b := rfl
@[simp] theorem State.byteAt_writeReg (b : Nat) : (s.writeReg rd v).byteAt b = s.byteAt b := rfl

/-- MemRead answers exactly when the access is admitted (R60). -/
theorem State.memRead_admitted (h : s.cfg.admits a.toNat n) :
    s.memRead a n = some (BitVec.ofNat 32 (Memory.loadLE s.mem a.toNat n)) := if_pos h

theorem State.memRead_not_admitted (h : ¬s.cfg.admits a.toNat n) : s.memRead a n = none := if_neg h

theorem State.memRead_cases {w : Word} (h : s.memRead a n = some w) :
    s.cfg.admits a.toNat n ∧ w = BitVec.ofNat 32 (Memory.loadLE s.mem a.toNat n) := by
  by_cases c : s.cfg.admits a.toNat n
  · rw [memRead_admitted s a n c] at h
    exact ⟨c, (Option.some.inj h).symm⟩
  · rw [memRead_not_admitted s a n c] at h
    cases h

/-- The state after an admitted MemWrite (R61). -/
theorem State.memWrite_admitted (h : s.cfg.admits a.toNat n) :
    s.memWrite a n v =
      some ((s.setMem (Memory.storeLE s.mem a.toNat n v.toNat)).setResv (resvAfterWrite s.ctx.resv a.toNat n)) :=
  if_pos h

theorem State.memWrite_not_admitted (h : ¬s.cfg.admits a.toNat n) : s.memWrite a n v = none := if_neg h

/-- Everything that a MemWrite can do (R61). -/
theorem State.memWrite_cases (h : s.memWrite a n v = some t) :
    s.cfg.admits a.toNat n ∧
      t = (s.setMem (Memory.storeLE s.mem a.toNat n v.toNat)).setResv (resvAfterWrite s.ctx.resv a.toNat n) := by
  by_cases c : s.cfg.admits a.toNat n
  · rw [memWrite_admitted s v a n c] at h
    exact ⟨c, (Option.some.inj h).symm⟩
  · rw [memWrite_not_admitted s v a n c] at h
    cases h

theorem State.byteAt_store_outside (b : Nat) (h : b < a.toNat ∨ a.toNat + n ≤ b) :
    (s.setMem (Memory.storeLE s.mem a.toNat n v.toNat)).byteAt b = s.byteAt b :=
  Memory.byte_storeLE_outside s.mem a.toNat b n v.toNat h

theorem State.byteAt_store_inside (k : Nat) (h : k < n) :
    (s.setMem (Memory.storeLE s.mem a.toNat n v.toNat)).byteAt (a.toNat + k) = v.extractLsb' (8 * k) 8 := by
  change Memory.byte (Memory.storeLE s.mem a.toNat n v.toNat) (a.toNat + k) = _
  rw [Memory.byte_storeLE_inside _ _ _ _ _ h]
  apply BitVec.eq_of_toNat_eq
  simp [BitVec.extractLsb', Nat.shiftRight_eq_div_pow]

/-- A reservation that a write does not end is the one held before, outside the written range (R61). -/
theorem resvAfterWrite_some {r : Option Word} {a n : Nat} {w : Word} (h : resvAfterWrite r a n = some w) :
    r = some w ∧ ¬covers a n w := by
  unfold resvAfterWrite at h
  split at h
  · cases h
  · split at h
    · cases h
    · cases h; exact ⟨rfl, ‹_›⟩

/-- The reservation after a write, said of each address (R61). -/
theorem resvAfterWrite_eq_some {r : Option Word} {a n : Nat} {w : Word} :
    resvAfterWrite r a n = some w ↔ r = some w ∧ ¬(a ≤ w.toNat ∧ w.toNat < a + n) := by
  refine ⟨resvAfterWrite_some, fun ⟨h, hc⟩ => ?_⟩
  subst h
  exact if_neg hc

/-- A 32-bit little-endian load is the four bytes put together (R55). -/
theorem State.loadLE_four (b : Nat) : BitVec.ofNat 32 (Memory.loadLE s.mem b 4) = s.wordAt b := by
  apply BitVec.eq_of_toNat_eq
  change _ = (s.byteAt (b + 3) ++ s.byteAt (b + 2) ++ s.byteAt (b + 1) ++ s.byteAt b : BitVec (8 + 8 + 8 + 8)).toNat
  have h := Memory.loadLE_lt s.mem b 4
  rw [BitVec.toNat_ofNat, Nat.mod_eq_of_lt h]
  simp only [Memory.loadLE, State.byteAt, BitVec.toNat_append, Nat.mul_zero, Nat.add_zero]
  simp only [Nat.add_assoc, Nat.reduceAdd]
  have h0 := (Memory.byte s.mem b).isLt
  have h1 := (Memory.byte s.mem (b + 1)).isLt
  have h2 := (Memory.byte s.mem (b + 2)).isLt
  rw [← Nat.shiftLeft_add_eq_or_of_lt h2, ← Nat.shiftLeft_add_eq_or_of_lt h1, ← Nat.shiftLeft_add_eq_or_of_lt h0]
  simp only [Nat.shiftLeft_eq]
  omega

/-- An admitted 4-byte MemRead gives the little-endian word (R60). -/
theorem State.memRead_word (h : s.cfg.admits a.toNat 4) : s.memRead a 4 = some (s.wordAt a.toNat) := by
  rw [State.memRead_admitted s a 4 h, State.loadLE_four]

/-! ## The frames of the updates -/

theorem SameControl.refl : SameControl s s := ⟨rfl, rfl, rfl, rfl, rfl, rfl⟩

theorem SameControl.writeReg : SameControl s (s.writeReg rd v) := ⟨by simp, rfl, rfl, rfl, rfl, rfl⟩

/-- Writing a register has the effect `WritesReg`. -/
theorem writesReg_writeReg : WritesReg rd v s (s.writeReg rd v) where
  regs := fun _ => State.readReg_writeReg ..
  pc := by simp
  resv := by simp
  mem := fun _ => rfl
  control := SameControl.writeReg s rd v

/-- Writing a register and pc has the effect `JumpsTo`. -/
theorem jumpsTo_writeReg_setPc (target : Word) : JumpsTo target rd v s ((s.writeReg rd v).setPc target) where
  regs := fun _ => State.readReg_writeReg ..
  pc := rfl
  resv := by simp
  mem := fun _ => rfl
  control := ⟨by simp, rfl, rfl, rfl, rfl, rfl⟩

/-- Writing pc has the effect `GoesTo`. -/
theorem goesTo_setPc (target : Word) : GoesTo target s (s.setPc target) where
  regs := fun _ => rfl
  pc := rfl
  resv := rfl
  mem := fun _ => rfl
  control := ⟨rfl, rfl, rfl, rfl, rfl, rfl⟩

/-- An admitted MemWrite has the effect `StoresAt`. -/
theorem storesAt_memWrite (h : s.memWrite a n v = some t) : StoresAt a.toNat n v s t := by
  obtain ⟨_, rfl⟩ := State.memWrite_cases s t v a n h
  exact
    { stored := fun k hk => State.byteAt_store_inside s v a n k hk
      mem := fun b hb => State.byteAt_store_outside s v a n b hb
      regs := fun _ => rfl
      pc := rfl
      resv := fun _ => resvAfterWrite_eq_some
      control := ⟨rfl, rfl, rfl, rfl, rfl, rfl⟩ }

/-! ## The templates -/

/-- Everything a load can do (R190). -/
theorem loadInto_cases (ext : Word → Word) {r : Result} (h : loadInto rd a n ext s = r) :
    (∃ w, s.memRead a n = some w ∧ r = .next (s.writeReg rd (ext w))) ∨
      (s.memRead a n = none ∧ r = s.raise .memoryViolation) := by
  unfold loadInto at h
  split at h
  · exact Or.inr ⟨‹_›, h.symm⟩
  · exact Or.inl ⟨_, ‹_›, h.symm⟩

/-- Everything a store can do (R190). -/
theorem storeTo_cases {r : Result} (h : storeTo a n v s = r) :
    (∃ t, s.memWrite a n v = some t ∧ r = .next t) ∨ (s.memWrite a n v = none ∧ r = s.raise .memoryViolation) := by
  unfold storeTo at h
  split at h
  · exact Or.inr ⟨‹_›, h.symm⟩
  · exact Or.inl ⟨_, ‹_›, h.symm⟩

/-- A branch answers a next state, with pc the target or unchanged (R211). -/
theorem branchIf_eq (c : Bool) (target : Word) :
    branchIf c target s = .next (s.setPc (if c then target else s.ctx.pc)) := by
  cases c <;> rfl

/-- An AMO on admitted bytes: the write cannot fail after the read succeeded (R243). -/
theorem amoOn_admitted (f : Word → Word → Word) (h : s.cfg.admits a.toNat 4) :
    ∃ t, s.memWrite a 4 (f (BitVec.ofNat 32 (Memory.loadLE s.mem a.toNat 4)) v) = some t ∧
      amoOn f rd a v s = .next (t.writeReg rd (BitVec.ofNat 32 (Memory.loadLE s.mem a.toNat 4))) := by
  refine ⟨_, State.memWrite_admitted s _ a 4 h, ?_⟩
  simp only [amoOn, State.memRead_admitted s a 4 h, State.memWrite_admitted s _ a 4 h]

theorem amoOn_not_admitted (f : Word → Word → Word) (h : ¬s.cfg.admits a.toNat 4) :
    amoOn f rd a v s = s.raise .memoryViolation := by
  simp only [amoOn, State.memRead_not_admitted s a 4 h]

/-- Everything an AMO can do (R243). -/
theorem amoOn_cases (f : Word → Word → Word) {r : Result} (h : amoOn f rd a v s = r) :
    (∃ t old, s.memRead a 4 = some old ∧ s.memWrite a 4 (f old v) = some t ∧ r = .next (t.writeReg rd old)) ∨
      (s.memRead a 4 = none ∧ r = s.raise .memoryViolation) := by
  by_cases c : s.cfg.admits a.toNat 4
  · obtain ⟨t, ht, he⟩ := amoOn_admitted s rd v a f c
    exact Or.inl ⟨t, _, State.memRead_admitted s a 4 c, ht, h.symm.trans he⟩
  · exact Or.inr ⟨State.memRead_not_admitted s a 4 c, h.symm.trans (amoOn_not_admitted s rd v a f c)⟩

/-! ## Attach and detach -/

theorem State.attach_vacant (c : Context) (id : TaskId) (h : s.cpuState = .vacant) :
    s.attach c id = .next { s with cpuState := .running, taskId := some id, ctx := c, report := none } := by
  simp [attach, h]

theorem State.attach_running (c : Context) (id : TaskId) (h : s.cpuState = .running) :
    s.attach c id = .refused .attachWhileRunning := by simp [attach, h]

theorem State.detach_running (h : s.cpuState = .running) : s.detach = .next s.detached := by simp [detach, h]

theorem State.detach_vacant (h : s.cpuState = .vacant) : s.detach = .refused .detachWhileVacant := by simp [detach, h]

end Sys2Proof.Machine
end

