-- ==== Sys2Proof/Laws/PerInstr.lean ====
section
/-! SUPPORT. For every instruction: the encoder's word selects the instruction's row of the opcode table (R88). -/

namespace Sys2Proof.Laws

/-- The word that the encoder writes selects the row of spec/opcode_table.json. -/
def EncodeRow.Statement (i : Instr) : Prop := i.row.selects (encode i)

namespace EncodeRow

theorem add (rd rs1 rs2 : Reg) : Statement (.add rd rs1 rs2) :=
  (encodeR_masked ..).trans rfl

theorem sub (rd rs1 rs2 : Reg) : Statement (.sub rd rs1 rs2) :=
  (encodeR_masked ..).trans rfl

theorem xor (rd rs1 rs2 : Reg) : Statement (.xor rd rs1 rs2) :=
  (encodeR_masked ..).trans rfl

theorem or (rd rs1 rs2 : Reg) : Statement (.or rd rs1 rs2) :=
  (encodeR_masked ..).trans rfl

theorem and (rd rs1 rs2 : Reg) : Statement (.and rd rs1 rs2) :=
  (encodeR_masked ..).trans rfl

theorem sll (rd rs1 rs2 : Reg) : Statement (.sll rd rs1 rs2) :=
  (encodeR_masked ..).trans rfl

theorem srl (rd rs1 rs2 : Reg) : Statement (.srl rd rs1 rs2) :=
  (encodeR_masked ..).trans rfl

theorem sra (rd rs1 rs2 : Reg) : Statement (.sra rd rs1 rs2) :=
  (encodeR_masked ..).trans rfl

theorem slt (rd rs1 rs2 : Reg) : Statement (.slt rd rs1 rs2) :=
  (encodeR_masked ..).trans rfl

theorem sltu (rd rs1 rs2 : Reg) : Statement (.sltu rd rs1 rs2) :=
  (encodeR_masked ..).trans rfl

theorem mul (rd rs1 rs2 : Reg) : Statement (.mul rd rs1 rs2) :=
  (encodeR_masked ..).trans rfl

theorem mulh (rd rs1 rs2 : Reg) : Statement (.mulh rd rs1 rs2) :=
  (encodeR_masked ..).trans rfl

theorem mulhsu (rd rs1 rs2 : Reg) : Statement (.mulhsu rd rs1 rs2) :=
  (encodeR_masked ..).trans rfl

theorem mulhu (rd rs1 rs2 : Reg) : Statement (.mulhu rd rs1 rs2) :=
  (encodeR_masked ..).trans rfl

theorem div (rd rs1 rs2 : Reg) : Statement (.div rd rs1 rs2) :=
  (encodeR_masked ..).trans rfl

theorem divu (rd rs1 rs2 : Reg) : Statement (.divu rd rs1 rs2) :=
  (encodeR_masked ..).trans rfl

theorem rem (rd rs1 rs2 : Reg) : Statement (.rem rd rs1 rs2) :=
  (encodeR_masked ..).trans rfl

theorem remu (rd rs1 rs2 : Reg) : Statement (.remu rd rs1 rs2) :=
  (encodeR_masked ..).trans rfl

theorem addi (rd rs1 : Reg) (imm : BitVec 12) : Statement (.addi rd rs1 imm) :=
  (encodeI_masked ..).trans rfl

theorem slti (rd rs1 : Reg) (imm : BitVec 12) : Statement (.slti rd rs1 imm) :=
  (encodeI_masked ..).trans rfl

theorem sltiu (rd rs1 : Reg) (imm : BitVec 12) : Statement (.sltiu rd rs1 imm) :=
  (encodeI_masked ..).trans rfl

theorem xori (rd rs1 : Reg) (imm : BitVec 12) : Statement (.xori rd rs1 imm) :=
  (encodeI_masked ..).trans rfl

theorem ori (rd rs1 : Reg) (imm : BitVec 12) : Statement (.ori rd rs1 imm) :=
  (encodeI_masked ..).trans rfl

theorem andi (rd rs1 : Reg) (imm : BitVec 12) : Statement (.andi rd rs1 imm) :=
  (encodeI_masked ..).trans rfl

theorem slli (rd rs1 : Reg) (shamt : BitVec 5) : Statement (.slli rd rs1 shamt) :=
  (congrArg (· &&& 0xFE00707F#32) (encodeShift_eq ..)).trans ((encodeR_masked ..).trans rfl)

theorem srli (rd rs1 : Reg) (shamt : BitVec 5) : Statement (.srli rd rs1 shamt) :=
  (congrArg (· &&& 0xFE00707F#32) (encodeShift_eq ..)).trans ((encodeR_masked ..).trans rfl)

theorem srai (rd rs1 : Reg) (shamt : BitVec 5) : Statement (.srai rd rs1 shamt) :=
  (congrArg (· &&& 0xFE00707F#32) (encodeShift_eq ..)).trans ((encodeR_masked ..).trans rfl)

theorem lb (rd rs1 : Reg) (imm : BitVec 12) : Statement (.lb rd rs1 imm) :=
  (encodeI_masked ..).trans rfl

theorem lh (rd rs1 : Reg) (imm : BitVec 12) : Statement (.lh rd rs1 imm) :=
  (encodeI_masked ..).trans rfl

theorem lw (rd rs1 : Reg) (imm : BitVec 12) : Statement (.lw rd rs1 imm) :=
  (encodeI_masked ..).trans rfl

theorem lbu (rd rs1 : Reg) (imm : BitVec 12) : Statement (.lbu rd rs1 imm) :=
  (encodeI_masked ..).trans rfl

theorem lhu (rd rs1 : Reg) (imm : BitVec 12) : Statement (.lhu rd rs1 imm) :=
  (encodeI_masked ..).trans rfl

theorem sb (rs1 rs2 : Reg) (imm : BitVec 12) : Statement (.sb rs1 rs2 imm) :=
  (encodeS_masked ..).trans rfl

theorem sh (rs1 rs2 : Reg) (imm : BitVec 12) : Statement (.sh rs1 rs2 imm) :=
  (encodeS_masked ..).trans rfl

theorem sw (rs1 rs2 : Reg) (imm : BitVec 12) : Statement (.sw rs1 rs2 imm) :=
  (encodeS_masked ..).trans rfl

theorem beq (rs1 rs2 : Reg) (imm : BitVec 13) : Statement (.beq rs1 rs2 imm) :=
  (encodeB_masked ..).trans rfl

theorem bne (rs1 rs2 : Reg) (imm : BitVec 13) : Statement (.bne rs1 rs2 imm) :=
  (encodeB_masked ..).trans rfl

theorem blt (rs1 rs2 : Reg) (imm : BitVec 13) : Statement (.blt rs1 rs2 imm) :=
  (encodeB_masked ..).trans rfl

theorem bge (rs1 rs2 : Reg) (imm : BitVec 13) : Statement (.bge rs1 rs2 imm) :=
  (encodeB_masked ..).trans rfl

theorem bltu (rs1 rs2 : Reg) (imm : BitVec 13) : Statement (.bltu rs1 rs2 imm) :=
  (encodeB_masked ..).trans rfl

theorem bgeu (rs1 rs2 : Reg) (imm : BitVec 13) : Statement (.bgeu rs1 rs2 imm) :=
  (encodeB_masked ..).trans rfl

theorem lui (rd : Reg) (imm : BitVec 20) : Statement (.lui rd imm) :=
  (encodeU_masked ..).trans rfl

theorem auipc (rd : Reg) (imm : BitVec 20) : Statement (.auipc rd imm) :=
  (encodeU_masked ..).trans rfl

theorem jal (rd : Reg) (imm : BitVec 21) : Statement (.jal rd imm) :=
  (encodeJ_masked ..).trans rfl

theorem jalr (rd rs1 : Reg) (imm : BitVec 12) : Statement (.jalr rd rs1 imm) :=
  (encodeI_masked ..).trans rfl

theorem ecall (rd rs1 : Reg) : Statement (.ecall rd rs1) :=
  (encodeI_masked_system ..).trans rfl

theorem ebreak (rd rs1 : Reg) : Statement (.ebreak rd rs1) :=
  (encodeI_masked_system ..).trans rfl

theorem lrW (aq rl : Bool) (rd rs1 rs2 : Reg) : Statement (.lrW aq rl rd rs1 rs2) :=
  (encodeA_masked ..).trans rfl

theorem scW (aq rl : Bool) (rd rs1 rs2 : Reg) : Statement (.scW aq rl rd rs1 rs2) :=
  (encodeA_masked ..).trans rfl

theorem amoswapW (aq rl : Bool) (rd rs1 rs2 : Reg) : Statement (.amoswapW aq rl rd rs1 rs2) :=
  (encodeA_masked ..).trans rfl

theorem amoaddW (aq rl : Bool) (rd rs1 rs2 : Reg) : Statement (.amoaddW aq rl rd rs1 rs2) :=
  (encodeA_masked ..).trans rfl

theorem amoxorW (aq rl : Bool) (rd rs1 rs2 : Reg) : Statement (.amoxorW aq rl rd rs1 rs2) :=
  (encodeA_masked ..).trans rfl

theorem amoandW (aq rl : Bool) (rd rs1 rs2 : Reg) : Statement (.amoandW aq rl rd rs1 rs2) :=
  (encodeA_masked ..).trans rfl

theorem amoorW (aq rl : Bool) (rd rs1 rs2 : Reg) : Statement (.amoorW aq rl rd rs1 rs2) :=
  (encodeA_masked ..).trans rfl

theorem amominW (aq rl : Bool) (rd rs1 rs2 : Reg) : Statement (.amominW aq rl rd rs1 rs2) :=
  (encodeA_masked ..).trans rfl

theorem amomaxW (aq rl : Bool) (rd rs1 rs2 : Reg) : Statement (.amomaxW aq rl rd rs1 rs2) :=
  (encodeA_masked ..).trans rfl

end EncodeRow
end Sys2Proof.Laws
end

