-- ==== Sys2Proof/Laws/Step.lean ====
section
/-! SUPPORT. What exec and step can do, said once: every invariant of the step is derived from these. -/

namespace Sys2Proof.Machine

/-- Everything an instruction can do when it answers a next state. -/
inductive Effect (s : State) : State → Prop
  | reg (rd : Reg) (v : Word) : Effect s (s.writeReg rd v)
  | jump (rd : Reg) (v target : Word) : Effect s ((s.writeReg rd v).setPc target)
  | goes (target : Word) : Effect s (s.setPc target)
  | store (a : Word) (n : Nat) (v : Word) (t : State) (h : s.memWrite a n v = some t) : Effect s t
  | amo (a v old : Word) (rd : Reg) (t : State) (h : s.memWrite a 4 v = some t) : Effect s (t.writeReg rd old)
  | reserve (a v : Word) (rd : Reg) (h : s.memRead a 4 = some v) : Effect s ((s.setResv (some a)).writeReg rd v)
  | condStored (a v : Word) (rd : Reg) (t : State) (h : s.memWrite a 4 v = some t) :
      Effect s ((t.setResv none).writeReg rd 0#32)
  | condFailed (rd : Reg) : Effect s ((s.setResv none).writeReg rd 1#32)
  | pause (c : PauseCause) : Effect s (s.notify (.pauseTask c))

variable {s t : State}

theorem regResult_effect {rd : Reg} {v : Word} (h : regResult rd v s = .next t) : Effect s t := by
  cases h; exact .reg rd v

theorem branchIf_effect {c : Bool} {a : Word} (h : branchIf c a s = .next t) : Effect s t := by
  rw [branchIf_eq] at h; cases h; exact .goes _

theorem loadInto_effect {rd : Reg} {a : Word} {n : Nat} {ext : Word → Word} (h : loadInto rd a n ext s = .next t) :
    Effect s t := by
  obtain ⟨w, _, e⟩ | ⟨_, e⟩ := loadInto_cases s rd a n ext h
  · cases e; exact .reg rd _
  · cases e

theorem storeTo_effect {a v : Word} {n : Nat} (h : storeTo a n v s = .next t) : Effect s t := by
  obtain ⟨w, hw, e⟩ | ⟨_, e⟩ := storeTo_cases s v a n h
  · cases e; exact .store a n v _ hw
  · cases e

theorem amoOn_effect {f : Word → Word → Word} {rd : Reg} {a v : Word} (h : amoOn f rd a v s = .next t) :
    Effect s t := by
  obtain ⟨w, old, _, hw, e⟩ | ⟨_, e⟩ := amoOn_cases s rd v a f h
  · cases e; exact .amo a _ old rd _ hw
  · cases e

theorem execLrW_effect {aq rl : Bool} {rd rs1 rs2 : Reg} (h : execLrW aq rl rd rs1 rs2 s = .next t) : Effect s t := by
  unfold execLrW at h
  split at h
  · cases h
  · cases h; exact .reserve _ _ rd ‹_›

theorem execScW_effect {aq rl : Bool} {rd rs1 rs2 : Reg} (h : execScW aq rl rd rs1 rs2 s = .next t) : Effect s t := by
  unfold execScW at h
  split at h
  · split at h
    · cases h
    · cases h; exact .condStored _ _ rd _ ‹_›
  · cases h; exact .condFailed rd

/-- The inversion lemma of exec. -/
theorem exec_effect {i : Instr} (h : exec i s = .next t) : Effect s t := by
  cases i
  case lrW aq rl rd rs1 rs2 => exact execLrW_effect (aq := aq) (rl := rl) (rs2 := rs2) h
  case scW aq rl rd rs1 rs2 => exact execScW_effect (aq := aq) (rl := rl) h
  case jal => cases h; exact .jump _ _ _
  case jalr => cases h; exact .jump _ _ _
  case ecall => cases h; exact .pause .envCall
  case ebreak => cases h; exact .pause .envBreak
  all_goals
    first
    | exact regResult_effect h
    | exact branchIf_effect h
    | exact loadInto_effect h
    | exact storeTo_effect h
    | exact amoOn_effect h

/-- What every instruction leaves as it is, whatever it does: the parameters, IR and the draws. -/
theorem Effect.keeps (h : Effect s t) : t.cfg = s.cfg ∧ t.ctx.ir = s.ctx.ir ∧ t.draws = s.draws := by
  cases h with
  | store a n v _ h => obtain ⟨_, rfl⟩ := State.memWrite_cases s _ v a n h; simp
  | amo a v _ _ _ h => obtain ⟨_, rfl⟩ := State.memWrite_cases s _ v a 4 h; simp
  | condStored a v _ _ h => obtain ⟨_, rfl⟩ := State.memWrite_cases s _ v a 4 h; simp
  | pause c => exact ⟨rfl, rfl, rfl⟩
  | _ => simp

/-- The CPU state, the task and the report change by a PauseTask event only. -/
theorem Effect.control (h : Effect s t) :
    (t.cpuState = s.cpuState ∧ t.taskId = s.taskId ∧ t.report = s.report) ∨ ∃ c, t = s.notify (.pauseTask c) := by
  cases h with
  | store a n v _ h => obtain ⟨_, rfl⟩ := State.memWrite_cases s _ v a n h; simp
  | amo a v _ _ _ h => obtain ⟨_, rfl⟩ := State.memWrite_cases s _ v a 4 h; simp
  | condStored a v _ _ h => obtain ⟨_, rfl⟩ := State.memWrite_cases s _ v a 4 h; simp
  | pause c => exact Or.inr ⟨c, rfl⟩
  | _ => simp

/-- Memory changes by an admitted store only. -/
theorem Effect.memory (h : Effect s t) :
    t.mem = s.mem ∨
      ∃ (a : Word) (n k : Nat), s.cfg.admits a.toNat n ∧ t.mem = Memory.storeLE s.mem a.toNat n k := by
  cases h with
  | store a n v _ h =>
    obtain ⟨ha, rfl⟩ := State.memWrite_cases s _ v a n h; exact Or.inr ⟨a, n, v.toNat, ha, rfl⟩
  | amo a v _ _ _ h =>
    obtain ⟨ha, rfl⟩ := State.memWrite_cases s _ v a 4 h; exact Or.inr ⟨a, 4, v.toNat, ha, rfl⟩
  | condStored a v _ _ h =>
    obtain ⟨ha, rfl⟩ := State.memWrite_cases s _ v a 4 h; exact Or.inr ⟨a, 4, v.toNat, ha, rfl⟩
  | pause c => exact Or.inl rfl
  | _ => simp

/-- Everything decoding and executing a word can do when it answers a next state (R115, R116). -/
theorem decodeAndRun_cases {w : Word} (h : decodeAndRun exec w s = .next t) :
    ∃ i, decode s.cfg.mEnabled w = some i ∧ exec i s = .next t := by
  unfold decodeAndRun at h
  split at h
  · cases h
  · exact ⟨_, ‹_›, h⟩

/-- Everything a step can do when it answers a next state (R111). -/
theorem step_cases (h : step s = .next t) :
    s.cpuState = .running ∧ s.faulted = false ∧ s.pcAdmitted = true ∧
      ∃ w, s.fetch = some w ∧
        ((s.atSignature = true ∧ t = (s.fetched w).notify .taskFinished) ∨
          (s.atSignature = false ∧ ∃ i, decode s.cfg.mEnabled w = some i ∧ exec i (s.fetched w) = .next t)) := by
  unfold step stepWith at h
  split at h
  · cases h
  · rename_i hr
    split at h
    · cases h
    · rename_i hf
      split at h
      · rename_i hp
        refine ⟨hr, by simpa using hf, hp, ?_⟩
        unfold shuttle at h
        split at h
        · cases h
        · rename_i w hw
          refine ⟨w, hw, ?_⟩
          split at h
          · rename_i hs
            cases h; exact Or.inl ⟨hs, rfl⟩
          · rename_i hs
            exact Or.inr ⟨by simpa using hs, decodeAndRun_cases h⟩
      · cases h

end Sys2Proof.Machine
end

