-- ==== Sys2Proof/Tests/Slice0.lean ====
section
/-! SUPPORT. Tests. The expected results are those of 95_test_vectors.md (parts 2 to 4), which its header derives from
the rules; a word that the vectors do not print is assembled by hand from the layouts of 30_encoding.md R81. The
witnesses at the end show a state and operands that meet the hypotheses of each statement. -/

namespace Sys2Proof.Tests

-- One theorem at a time: a thread for each of the kernel's evaluations would exceed the memory limit.
set_option Elab.async false

open Sys2Proof Sys2Proof.Machine

/-! ## Helpers -/

/-- A Running machine with the default parameters, its pc at `pc`, and the listed registers, bytes and reservation. -/
def machine (pc : Word) (regs : List (Reg × Word)) (cells : List (Nat × Byte)) (resv : Option Word) : State :=
  let s := { State.reset with cpuState := .running, taskId := some 7 }
  let s := regs.foldl (fun s p => s.writeReg p.1 p.2) (s.setPc pc)
  (s.setMem (cells.foldl (fun m p => Memory.write m p.1 p.2) [])).setResv resv

/-- The machine of 95_test_vectors.md 3.5: pc 80000010, no byte written. -/
def base (regs : List (Reg × Word)) : State := machine 0x80000010#32 regs [] none

/-- One step of the machine with the word at its pc. -/
def run (w : Nat) (s : State) : Result := step (s.withFetchWord 32 w)

/-- The next state that a result answers, if it does. -/
def nextOf : Result → Option State
  | .next t => some t
  | .fault _ => none
  | .refused _ => none

/-- The status and the state of a fatal step error, if the result is one. -/
def fatalOf : Result → Option (FatalStatus × State)
  | .next _ => none
  | .fault (.fatalStepError st left) => some (st, left)
  | .fault .stuckAfterFatal => none
  | .refused _ => none

/-- A register of the next state. -/
def reg (r : Result) (i : Reg) : Option Word := (nextOf r).map fun t => t.readReg i

/-- pc of the next state. -/
def pc (r : Result) : Option Word := (nextOf r).map fun t => t.ctx.pc

/-- The reservation of the next state. -/
def resvOf (r : Result) : Option (Option Word) := (nextOf r).map fun t => t.ctx.resv

/-- What the next state has reported, and whether the CPU is Vacant. -/
def reported (r : Result) : Option (Option Report × CpuState) := (nextOf r).map fun t => (t.report, t.cpuState)

/-- Written bytes of the next state. -/
def cells (r : Result) (a n : Nat) : Option (List (Option Byte)) :=
  (nextOf r).map fun t => (List.range n).map fun k => Memory.lookup t.mem (a + k)

/-- A result that passes a check on its next state answers one. -/
theorem exists_next {r : Result} (p : State → Bool) (h : (nextOf r).any p = true) : ∃ t, r = .next t ∧ p t = true :=
  by
  cases r with
  | next t => exact ⟨t, rfl, h⟩
  | fault f => cases h
  | refused f => cases h

/-- A result that is a fatal step error of the given status. -/
theorem exists_fatal {r : Result} {st : FatalStatus} (h : (fatalOf r).map Prod.fst = some st) :
    ∃ left, r = .fault (.fatalStepError st left) := by
  unfold fatalOf at h
  split at h
  · cases h
  · cases h; exact ⟨_, rfl⟩
  · cases h
  · cases h

/-! ## Well-formed instructions -/

/-- A branch offset whose bit 0 is 1 has no encoding (30_encoding.md R85). -/
theorem test_wf_branch_odd_refused :
    Instr.wf (.beq 1 2 9) = false ∧ Instr.wf (.bne 1 2 1) = false ∧ Instr.wf (.blt 1 2 0x1FFF) = false ∧
      Instr.wf (.bge 1 2 3) = false ∧ Instr.wf (.bltu 1 2 5) = false ∧ Instr.wf (.bgeu 1 2 7) = false ∧
      Instr.wf (.beq 1 2 8) = true := by decide

/-- A JAL offset whose bit 0 is 1 has no encoding (30_encoding.md R87). -/
theorem test_wf_jal_odd_refused : Instr.wf (.jal 1 9) = false ∧ Instr.wf (.jal 1 0x100000) = true := by decide

/-! ## Decoding: one word for each instruction, 95_test_vectors.md part 2 -/

theorem test_decode_register :
    decode true 0x003100B3#32 = some (.add 1 2 3) ∧
      decode true 0x407302B3#32 = some (.sub 5 6 7) ∧
      decode true 0x003110B3#32 = some (.sll 1 2 3) ∧
      decode true 0x003120B3#32 = some (.slt 1 2 3) ∧
      decode true 0x003130B3#32 = some (.sltu 1 2 3) ∧
      decode true 0x003140B3#32 = some (.xor 1 2 3) ∧
      decode true 0x003150B3#32 = some (.srl 1 2 3) ∧
      decode true 0x403150B3#32 = some (.sra 1 2 3) ∧
      decode true 0x003160B3#32 = some (.or 1 2 3) ∧
      decode true 0x003170B3#32 = some (.and 1 2 3) := by decide +kernel

theorem test_decode_multiply :
    decode true 0x02C58533#32 = some (.mul 10 11 12) ∧
      decode true 0x02C59533#32 = some (.mulh 10 11 12) ∧
      decode true 0x02C5A533#32 = some (.mulhsu 10 11 12) ∧
      decode true 0x02C5B533#32 = some (.mulhu 10 11 12) ∧
      decode true 0x02C5C533#32 = some (.div 10 11 12) ∧
      decode true 0x02C5D533#32 = some (.divu 10 11 12) ∧
      decode true 0x02C5E533#32 = some (.rem 10 11 12) ∧
      decode true 0x02C5F533#32 = some (.remu 10 11 12) := by decide +kernel

theorem test_decode_immediate :
    decode true 0x00500093#32 = some (.addi 1 0 5) ∧
      decode true 0xFFF10093#32 = some (.addi 1 2 0xFFF) ∧
      decode true 0x7FF00093#32 = some (.addi 1 0 0x7FF) ∧
      decode true 0x80000093#32 = some (.addi 1 0 0x800) ∧
      decode true 0xFFF12093#32 = some (.slti 1 2 0xFFF) ∧
      decode true 0xFFF13093#32 = some (.sltiu 1 2 0xFFF) ∧
      decode true 0xFFF14093#32 = some (.xori 1 2 0xFFF) ∧
      decode true 0x0F016093#32 = some (.ori 1 2 0x0F0) ∧
      decode true 0x0FF17093#32 = some (.andi 1 2 0x0FF) ∧
      decode true 0x01F11093#32 = some (.slli 1 2 31) ∧
      decode true 0x00415093#32 = some (.srli 1 2 4) ∧
      decode true 0x40415093#32 = some (.srai 1 2 4) := by decide +kernel

theorem test_decode_loads_stores :
    decode true 0xFFC10283#32 = some (.lb 5 2 0xFFC) ∧
      decode true 0x00211283#32 = some (.lh 5 2 2) ∧
      decode true 0x00812283#32 = some (.lw 5 2 8) ∧
      decode true 0xFFC14283#32 = some (.lbu 5 2 0xFFC) ∧
      decode true 0x00215283#32 = some (.lhu 5 2 2) ∧
      decode true 0xFE510FA3#32 = some (.sb 2 5 0xFFF) ∧
      decode true 0x00511323#32 = some (.sh 2 5 6) ∧
      decode true 0xFE512C23#32 = some (.sw 2 5 0xFF8) := by decide +kernel

theorem test_decode_control :
    decode true 0x00208463#32 = some (.beq 1 2 8) ∧
      decode true 0xFE209EE3#32 = some (.bne 1 2 0x1FFC) ∧
      decode true 0xFE20CCE3#32 = some (.blt 1 2 0x1FF8) ∧
      decode true 0x0020D863#32 = some (.bge 1 2 16) ∧
      decode true 0x7E20EFE3#32 = some (.bltu 1 2 0xFFE) ∧
      decode true 0x8020F063#32 = some (.bgeu 1 2 0x1000) ∧
      decode true 0x123452B7#32 = some (.lui 5 0x12345) ∧
      decode true 0xFFFFF2B7#32 = some (.lui 5 0xFFFFF) ∧
      decode true 0x00001297#32 = some (.auipc 5 1) ∧
      decode true 0xFFFFF297#32 = some (.auipc 5 0xFFFFF) ∧
      decode true 0x008000EF#32 = some (.jal 1 8) ∧
      decode true 0xFFDFF06F#32 = some (.jal 0 0x1FFFFC) ∧
      decode true 0x7FFFF0EF#32 = some (.jal 1 0xFFFFE) ∧
      decode true 0x800000EF#32 = some (.jal 1 0x100000) ∧
      decode true 0x00008067#32 = some (.jalr 0 1 0) ∧
      decode true 0xFFD280E7#32 = some (.jalr 1 5 0xFFD) := by decide +kernel

theorem test_decode_system :
    decode true 0x00000073#32 = some (.ecall 0 0) ∧
      decode true 0x00000573#32 = some (.ecall 10 0) ∧
      decode true 0x00100073#32 = some (.ebreak 0 0) ∧
      decode true 0x00100FF3#32 = some (.ebreak 31 0) := by decide +kernel

theorem test_decode_atomics :
    decode true 0x100522AF#32 = some (.lrW false false 5 10 0) ∧
      decode true 0x1075A2AF#32 = some (.lrW false false 5 11 7) ∧
      decode true 0x1605252F#32 = some (.lrW true true 10 10 0) ∧
      decode true 0x1875232F#32 = some (.scW false false 6 10 7) ∧
      decode true 0x086522AF#32 = some (.amoswapW false false 5 10 6) ∧
      decode true 0x006522AF#32 = some (.amoaddW false false 5 10 6) ∧
      decode true 0x206522AF#32 = some (.amoxorW false false 5 10 6) ∧
      decode true 0x606522AF#32 = some (.amoandW false false 5 10 6) ∧
      decode true 0x406522AF#32 = some (.amoorW false false 5 10 6) ∧
      decode true 0x806522AF#32 = some (.amominW false false 5 10 6) ∧
      decode true 0xA06522AF#32 = some (.amomaxW false false 5 10 6) := by decide +kernel

/-- The invalid words of 95_test_vectors.md part 2. -/
theorem test_decode_invalid_words :
    ([0x00000000#32, 0xFFFFFFFF#32, 0x00000001#32, 0x00000002#32, 0x0FF0000F#32, 0x0000100F#32, 0x30200073#32,
      0x10500073#32,
      0x00200073#32, 0xC0001073#32, 0x00003003#32, 0x00003023#32, 0x00002063#32, 0x00001067#32, 0x02001013#32,
        0x40001013#32,
      0x20005013#32, 0x40001033#32, 0x20000033#32, 0x04000033#32, 0xC000202F#32, 0xE000202F#32, 0x1000302F#32,
        0x1000102F#32,
      0x0000003B#32, 0x0000001B#32, 0x00000007#32, 0x00000053#32, 0xEFBEADDE#32] : List Word).all
        (fun w => (decode true w).isNone) = true := by decide +kernel

/-- The M words with the multiply decoder not registered (30_encoding.md R90). -/
theorem test_decode_multiply_not_registered :
    ([0x02C58533#32, 0x02C59533#32, 0x02C5A533#32, 0x02C5B533#32, 0x02C5C533#32, 0x02C5D533#32, 0x02C5E533#32,
      0x02C5F533#32] : List Word).all (fun w => (decode false w).isNone) = true := by decide +kernel

theorem test_decode_rejects_by_name :
    decodeWord true 0x0FF0000F#32 = .error .unknownOpcode ∧
      decodeWord true 0x20005013#32 = .error .unknownSelector ∧
      decodeWord false 0x02C58533#32 = .error .multiplyNotRegistered ∧
      decodeBytes true [0x13#8, 0x00#8, 0x00#8] = .error .tooFewBytes := by decide +kernel

/-- `DEADBEEF` decodes as JAL x29 with offset -150038 (30_encoding.md R102, 90_conflicts.md C1). -/
theorem test_decode_deadbeef : decode true 0xDEADBEEF#32 = some (.jal 29 (BitVec.ofInt 21 (-150038))) := by
  decide +kernel

/-- The bytes of `add x1, x2, x3` in ascending address order (30_encoding.md R80). -/
theorem test_decode_bytes :
    decodeBytes true [0xB3#8, 0x00#8, 0x31#8, 0x00#8, 0x55#8] = .ok (.add 1 2 3, [0x55#8]) ∧
      decodeTableWord 32 0x003100B3 = some (.add 1 2 3) ∧ decodeTableWord 32 0x0FF0000F = none := by decide +kernel

/-- The primitives on the word of `add x1, x2, x3` (95_test_vectors.md S10; 00_scope.md R11, R12). -/
theorem test_bit_primitives :
    extractBits 0x003100B3 0 7 = 0x33 ∧ extractBits 0x003100B3 20 25 = 3 ∧
      concatBits 0x003100B3 [(0, 7), (20, 25)] = 0x33 * 32 + 3 ∧ sextBits 12 0xFFF = 0xFFFFFFFF#32 ∧
      zextBits 8 0xF80 = 0x80#32 ∧ wordByte 0x80FF1234#32 0 = 0x34#8 ∧ wordFlag 0x80000000#32 31 = true := by
  decide +kernel

/-- The column format of spec/opcode_table.json, row by row (30_encoding.md R89 to R97). -/
theorem test_formats :
    rowInstrs.map Instr.format =
      List.replicate 18 .r ++ List.replicate 14 .i ++ List.replicate 3 .s ++ List.replicate 6 .b ++ [.u, .u, .j] ++
        List.replicate 3 .i ++ List.replicate 9 .atomicR := by decide

/-- The R fields of `add x1, x2, x3` (95_test_vectors.md S1), and the immediates of part 2 by format: -1, -8, -4096,
FFFFF000, -1048576; none for R and AtomicR. -/
theorem test_format_fields_and_immediates :
    InstrFormat.r.fields.map (FieldName.value 0x003100B3#32) = [0x33, 1, 2, 3, 0, 0] ∧
      InstrFormat.i.immediate 0xFFF10093#32 = some 0xFFFFFFFF#32 ∧
      InstrFormat.s.immediate 0xFE512C23#32 = some 0xFFFFFFF8#32 ∧
      InstrFormat.b.immediate 0x8020F063#32 = some 0xFFFFF000#32 ∧
      InstrFormat.u.immediate 0xFFFFF2B7#32 = some 0xFFFFF000#32 ∧
      InstrFormat.j.immediate 0x800000EF#32 = some 0xFFF00000#32 ∧
      InstrFormat.r.immediate 0x003100B3#32 = none ∧ InstrFormat.atomicR.immediate 0x100522AF#32 = none := by
  decide +kernel

/-! ## Execution: 95_test_vectors.md part 3, one step each -/

theorem test_add :
    reg (run 0x003100B3 (base [(2, 0x7FFFFFFF#32), (3, 0x00000001#32)])) 1 = some 0x80000000#32 ∧
      reg (run 0x003100B3 (base [(2, 0xFFFFFFFF#32), (3, 0x00000001#32)])) 1 = some 0x00000000#32 := by decide +kernel

theorem test_sub :
    reg (run 0x403100B3 (base [(2, 0x00000000#32), (3, 0x00000001#32)])) 1 = some 0xFFFFFFFF#32 ∧
      reg (run 0x403100B3 (base [(2, 0x80000000#32), (3, 0x00000001#32)])) 1 = some 0x7FFFFFFF#32 := by decide +kernel

theorem test_sll :
    reg (run 0x003110B3 (base [(2, 0x00000001#32), (3, 0x00000021#32)])) 1 = some 0x00000002#32 ∧
      reg (run 0x003110B3 (base [(2, 0x80000001#32), (3, 0x00000001#32)])) 1 = some 0x00000002#32 := by decide +kernel

theorem test_srl :
    reg (run 0x003150B3 (base [(2, 0x80000000#32), (3, 0x0000001F#32)])) 1 = some 0x00000001#32 ∧
      reg (run 0x003150B3 (base [(2, 0x80000000#32), (3, 0x00000020#32)])) 1 = some 0x80000000#32 := by decide +kernel

theorem test_sra :
    reg (run 0x403150B3 (base [(2, 0x80000000#32), (3, 0x00000004#32)])) 1 = some 0xF8000000#32 ∧
      reg (run 0x403150B3 (base [(2, 0x7FFFFFFF#32), (3, 0x00000004#32)])) 1 = some 0x07FFFFFF#32 := by decide +kernel

theorem test_slt :
    reg (run 0x003120B3 (base [(2, 0xFFFFFFFF#32), (3, 0x00000001#32)])) 1 = some 0x00000001#32 ∧
      reg (run 0x003120B3 (base [(2, 0x00000001#32), (3, 0xFFFFFFFF#32)])) 1 = some 0x00000000#32 := by decide +kernel

theorem test_sltu :
    reg (run 0x003130B3 (base [(2, 0xFFFFFFFF#32), (3, 0x00000001#32)])) 1 = some 0x00000000#32 ∧
      reg (run 0x003130B3 (base [(2, 0x00000001#32), (3, 0xFFFFFFFF#32)])) 1 = some 0x00000001#32 := by decide +kernel

theorem test_xor :
    reg (run 0x003140B3 (base [(2, 0xFF00FF00#32), (3, 0x0FF00FF0#32)])) 1 = some 0xF0F0F0F0#32 := by decide +kernel

theorem test_or :
    reg (run 0x003160B3 (base [(2, 0xFF00FF00#32), (3, 0x0FF00FF0#32)])) 1 = some 0xFFF0FFF0#32 := by decide +kernel

theorem test_and :
    reg (run 0x003170B3 (base [(2, 0xFF00FF00#32), (3, 0x0FF00FF0#32)])) 1 = some 0x0F000F00#32 := by decide +kernel

theorem test_mul :
    reg (run 0x02C58533 (base [(11, 0x00010000#32), (12, 0x00010000#32)])) 10 = some 0x00000000#32 ∧
      reg (run 0x02C58533 (base [(11, 0x00000007#32), (12, 0xFFFFFFFD#32)])) 10 = some 0xFFFFFFEB#32 := by
        decide +kernel

theorem test_mulh :
    reg (run 0x02C59533 (base [(11, 0xFFFFFFFF#32), (12, 0xFFFFFFFF#32)])) 10 = some 0x00000000#32 ∧
      reg (run 0x02C59533 (base [(11, 0x80000000#32), (12, 0x7FFFFFFF#32)])) 10 = some 0xC0000000#32 := by
        decide +kernel

theorem test_mulhsu :
    reg (run 0x02C5A533 (base [(11, 0xFFFFFFFF#32), (12, 0xFFFFFFFF#32)])) 10 = some 0xFFFFFFFF#32 ∧
      reg (run 0x02C5A533 (base [(11, 0x00000002#32), (12, 0x80000000#32)])) 10 = some 0x00000001#32 := by
        decide +kernel

theorem test_mulhu :
    reg (run 0x02C5B533 (base [(11, 0xFFFFFFFF#32), (12, 0xFFFFFFFF#32)])) 10 = some 0xFFFFFFFE#32 ∧
      reg (run 0x02C5B533 (base [(11, 0x80000000#32), (12, 0x00000002#32)])) 10 = some 0x00000001#32 := by
        decide +kernel

theorem test_div :
    reg (run 0x02C5C533 (base [(11, 0xFFFFFFF9#32), (12, 0x00000002#32)])) 10 = some 0xFFFFFFFD#32 ∧
      reg (run 0x02C5C533 (base [(11, 0x00000007#32), (12, 0x00000000#32)])) 10 = some 0xFFFFFFFF#32 ∧
      reg (run 0x02C5C533 (base [(11, 0x80000000#32), (12, 0xFFFFFFFF#32)])) 10 = some 0x80000000#32 := by
        decide +kernel

theorem test_divu :
    reg (run 0x02C5D533 (base [(11, 0xFFFFFFF9#32), (12, 0x00000002#32)])) 10 = some 0x7FFFFFFC#32 ∧
      reg (run 0x02C5D533 (base [(11, 0x00000007#32), (12, 0x00000000#32)])) 10 = some 0xFFFFFFFF#32 := by
        decide +kernel

theorem test_rem :
    reg (run 0x02C5E533 (base [(11, 0xFFFFFFF9#32), (12, 0x00000002#32)])) 10 = some 0xFFFFFFFF#32 ∧
      reg (run 0x02C5E533 (base [(11, 0x00000007#32), (12, 0xFFFFFFFE#32)])) 10 = some 0x00000001#32 ∧
      reg (run 0x02C5E533 (base [(11, 0xFFFFFFF9#32), (12, 0x00000000#32)])) 10 = some 0xFFFFFFF9#32 ∧
      reg (run 0x02C5E533 (base [(11, 0x80000000#32), (12, 0xFFFFFFFF#32)])) 10 = some 0x00000000#32 := by
        decide +kernel

theorem test_remu :
    reg (run 0x02C5F533 (base [(11, 0xFFFFFFF9#32), (12, 0x00000002#32)])) 10 = some 0x00000001#32 ∧
      reg (run 0x02C5F533 (base [(11, 0x80000000#32), (12, 0xFFFFFFFF#32)])) 10 = some 0x80000000#32 ∧
      reg (run 0x02C5F533 (base [(11, 0x00000007#32), (12, 0x00000000#32)])) 10 = some 0x00000007#32 := by
        decide +kernel

theorem test_addi :
    reg (run 0x00110093 (base [(2, 0x7FFFFFFF#32)])) 1 = some 0x80000000#32 ∧
      reg (run 0x80010093 (base [(2, 0x00000000#32)])) 1 = some 0xFFFFF800#32 := by decide +kernel

theorem test_slti :
    reg (run 0x00012093 (base [(2, 0xFFFFFFFF#32)])) 1 = some 0x00000001#32 ∧
      reg (run 0xFFF12093 (base [(2, 0x00000000#32)])) 1 = some 0x00000000#32 := by decide +kernel

theorem test_sltiu :
    reg (run 0xFFF13093 (base [(2, 0x00000005#32)])) 1 = some 0x00000001#32 ∧
      reg (run 0xFFF13093 (base [(2, 0xFFFFFFFF#32)])) 1 = some 0x00000000#32 := by decide +kernel

theorem test_xori :
    reg (run 0xFFF14093 (base [(2, 0x0F0F0F0F#32)])) 1 = some 0xF0F0F0F0#32 := by decide +kernel

theorem test_ori :
    reg (run 0x0F016093 (base [(2, 0x00000100#32)])) 1 = some 0x000001F0#32 := by decide +kernel

theorem test_andi :
    reg (run 0x0FF17093 (base [(2, 0x12345678#32)])) 1 = some 0x00000078#32 ∧
      reg (run 0xF0017093 (base [(2, 0x12345678#32)])) 1 = some 0x12345600#32 := by decide +kernel

theorem test_slli :
    reg (run 0x01F11093 (base [(2, 0x00000001#32)])) 1 = some 0x80000000#32 ∧
      reg (run 0x00411093 (base [(2, 0xFFFFFFFF#32)])) 1 = some 0xFFFFFFF0#32 := by decide +kernel

theorem test_srli :
    reg (run 0x00415093 (base [(2, 0x80000000#32)])) 1 = some 0x08000000#32 ∧
      reg (run 0x01F15093 (base [(2, 0xFFFFFFFF#32)])) 1 = some 0x00000001#32 := by decide +kernel

theorem test_srai :
    reg (run 0x40415093 (base [(2, 0x80000000#32)])) 1 = some 0xF8000000#32 ∧
      reg (run 0x41F15093 (base [(2, 0x7FFFFFFF#32)])) 1 = some 0x00000000#32 := by decide +kernel

/-- `x0` as destination: no register changes; rd = rs1 reads the old value (41_integer_register.md R130). -/
theorem test_register_zero_and_rd_is_rs1 :
    reg (run 0x00310033 (base [(2, 5#32), (3, 6#32)])) 0 = some 0#32 ∧
      reg (run 0x00310133 (base [(2, 5#32), (3, 6#32)])) 2 = some 11#32 ∧
      pc (run 0x00000013 (base [])) = some 0x80000014#32 := by decide +kernel

/-- The bytes of 95_test_vectors.md 3.4, and `x2`. -/
def memory34 (x2 : Word) (extra : List (Nat × Byte)) : State :=
  machine 0x80000010#32 [(2, x2), (5, 0x80FF1234#32)]
    ([(0x80000100, 0x34#8), (0x80000101, 0x12#8), (0x80000102, 0xff#8), (0x80000103, 0x80#8)] ++ extra) none

theorem test_lw :
    reg (run 0x00012283 (memory34 0x80000100#32 [])) 5 = some 0x80FF1234#32 := by decide +kernel

theorem test_lh :
    reg (run 0x00211283 (memory34 0x80000100#32 [])) 5 = some 0xFFFF80FF#32 ∧
      reg (run 0x00111283 (memory34 0x80000100#32 [])) 5 = some 0xFFFFFF12#32 := by decide +kernel

theorem test_lhu :
    reg (run 0x00215283 (memory34 0x80000100#32 [])) 5 = some 0x000080FF#32 := by decide +kernel

theorem test_lb :
    reg (run 0x00310283 (memory34 0x80000100#32 [])) 5 = some 0xFFFFFF80#32 ∧
      reg (run 0x00110283 (memory34 0x80000100#32 [])) 5 = some 0x00000012#32 := by decide +kernel

theorem test_lbu :
    reg (run 0x00314283 (memory34 0x80000100#32 [])) 5 = some 0x00000080#32 := by decide +kernel

/-- The window's last byte loads; the byte above it does not, nor a word that straddles the top, nor a wrapped address;
the status is MemoryViolation and x5 is unchanged (95_test_vectors.md 3.4). -/
theorem test_load_bounds :
    reg (run 0x00010283 (memory34 0x807FFFFF#32 [(0x807FFFFF, 0x80#8)])) 5 = some 0xFFFFFF80#32 ∧
      (fatalOf (run 0x00010283 (memory34 0x80800000#32 []))).map Prod.fst = some .memoryViolation ∧
      (fatalOf (run 0x00012283 (memory34 0x807FFFFD#32 []))).map (fun p => (p.1, p.2.readReg 5, p.2.ctx.pc)) =
        some (.memoryViolation, 0x80FF1234#32, 0x80000014#32) ∧
      (fatalOf (run 0xFFC12283 (memory34 0x80000000#32 []))).map Prod.fst = some .memoryViolation ∧
      (fatalOf (run 0xFF812283 (memory34 0x00000004#32 []))).map Prod.fst = some .memoryViolation ∧
      (fatalOf (run 0x00012283 (memory34 0xFFFFFFFE#32 []))).map Prod.fst = some .memoryViolation := by
  decide +kernel

theorem test_sw :
    cells (run 0x00512023 (memory34 0x80000200#32 [])) 0x80000200 4 =
        some [some 0x34#8, some 0x12#8, some 0xff#8, some 0x80#8] ∧
      (fatalOf (run 0x00512023 (memory34 0x807FFFFE#32 [(0x807FFFFE, 1#8), (0x807FFFFF, 2#8)]))).map
          (fun p => (Memory.lookup p.2.mem 0x807FFFFE, Memory.lookup p.2.mem 0x807FFFFF)) =
        some (some 1#8, some 2#8) := by decide +kernel

theorem test_sh :
    cells (run 0x00511323 (memory34 0x80000100#32 [])) 0x80000104 4 = some [none, none, some 0x34#8, some 0x12#8] :=
      by
  decide +kernel

theorem test_sb :
    cells (run 0x005102A3 (memory34 0x80000100#32 [])) 0x80000104 3 = some [none, some 0x34#8, none] := by
  decide +kernel

theorem test_beq :
    pc (run 0x00208463 (base [(1, 0x00000005#32), (2, 0x00000005#32)])) = some 0x80000018#32 ∧
      pc (run 0x00208463 (base [(1, 0x00000005#32), (2, 0x00000006#32)])) = some 0x80000014#32 := by decide +kernel

theorem test_bne :
    pc (run 0xFE209EE3 (base [(1, 0x00000005#32), (2, 0x00000006#32)])) = some 0x8000000C#32 ∧
      pc (run 0xFE209EE3 (base [(1, 0x00000005#32), (2, 0x00000005#32)])) = some 0x80000014#32 := by decide +kernel

theorem test_blt :
    pc (run 0xFE20CCE3 (base [(1, 0xFFFFFFFF#32), (2, 0x00000000#32)])) = some 0x80000008#32 := by decide +kernel

theorem test_bge :
    pc (run 0x0020D863 (base [(1, 0x80000000#32), (2, 0x80000000#32)])) = some 0x80000020#32 := by decide +kernel

theorem test_bltu :
    pc (run 0x7E20EFE3 (base [(1, 0xFFFFFFFF#32), (2, 0x00000000#32)])) = some 0x80000014#32 := by decide +kernel

theorem test_bgeu :
    pc (run 0x8020F063 (base [(1, 0x00000000#32), (2, 0x00000001#32)])) = some 0x80000014#32 ∧
      pc (run 0x8020F063 (base [(1, 0x00000001#32), (2, 0x00000000#32)])) = some 0x7FFFF010#32 := by decide +kernel

theorem test_lui : reg (run 0x123452B7 (base [])) 5 = some 0x12345000#32 := by decide +kernel

theorem test_auipc :
    reg (run 0x00001297 (base [])) 5 = some 0x80001010#32 ∧ reg (run 0xFFFFF297 (base [])) 5 = some 0x7FFFF010#32 :=
      by
  decide +kernel

theorem test_jal :
    pc (run 0x008000EF (base [])) = some 0x80000018#32 ∧ reg (run 0x008000EF (base [])) 1 = some 0x80000014#32 ∧
      pc (run 0xFFDFF06F (base [])) = some 0x8000000C#32 := by decide +kernel

theorem test_jalr :
    pc (run 0x00008067 (base [(1, 0x80000101#32)])) = some 0x80000100#32 ∧
      pc (run 0xFFD280E7 (base [(5, 0x80000011#32)])) = some 0x8000000E#32 ∧
      pc (run 0x000080E7 (base [(1, 0x80000040#32)])) = some 0x80000040#32 ∧
      reg (run 0x000080E7 (base [(1, 0x80000040#32)])) 1 = some 0x80000014#32 := by decide +kernel

/-! ## System instructions and step outcomes: 95_test_vectors.md 3.6 -/

theorem test_ecall :
    reported (run 0x00000073 (base [])) = some (some (.event (.pauseTask .envCall)), .vacant) ∧
      pc (run 0x00000073 (base [])) = some 0x80000014#32 := by decide +kernel

theorem test_ebreak :
    reported (run 0x00100073 (base [])) = some (some (.event (.pauseTask .envBreak)), .vacant) ∧
      pc (run 0x00100073 (base [])) = some 0x80000014#32 := by decide +kernel

theorem test_trap_signature :
    reported (run 0xEFBEADDE (base [])) = some (some (.event .taskFinished), .vacant) ∧
      (nextOf (run 0xEFBEADDE (base []))).map (fun t => (t.ctx.pc, t.ctx.ir)) =
        some (0x80000014#32, 0xEFBEADDE#32) := by decide +kernel

theorem test_invalid_word :
    (fatalOf (run 0x0FF0000F (base []))).map (fun p => (p.1, p.2.ctx.pc, p.2.ctx.ir, p.2.cpuState)) =
      some (.invalidInstruction, 0x80000014#32, 0x0FF0000F#32, .running) := by decide +kernel

/-- A fetch above the window, and one that straddles its top: pc and IR unchanged. -/
theorem test_fetch_bounds :
    (fatalOf (step (machine 0x80800000#32 [] [] none))).map (fun p => (p.1, p.2.ctx.pc, p.2.ctx.ir)) =
        some (.memoryViolation, 0x80800000#32, 0#32) ∧
      (fatalOf (step (machine 0x807FFFFE#32 [] [] none))).map (fun p => (p.1, p.2.ctx.pc)) =
        some (.memoryViolation, 0x807FFFFE#32) := by decide +kernel

/-- The last word of the window is fetched and runs (95_test_vectors.md P6h). -/
theorem test_last_word_runs :
    reg (run 0x00100293 (machine 0x807FFFFC#32 [] [] none)) 5 = some 1#32 ∧
      pc (run 0x00100293 (machine 0x807FFFFC#32 [] [] none)) = some 0x80800000#32 := by decide +kernel

/-- A NOP at an unaligned pc runs under `unchecked` (95_test_vectors.md P6i). -/
theorem test_unaligned_pc_runs : pc (run 0x00000013 (machine 0x80000002#32 [] [] none)) = some 0x80000006#32 := by
  decide +kernel

/-- No step from reset: the CPU is Vacant (40_step_cycle.md R121). -/
theorem test_step_from_reset_refused : step State.reset = .refused .stepWhileVacant := rfl

/-- An instruction placed on the reset state runs there at `ENTRY` (log 10). -/
theorem test_placed_on_reset :
    reg (run 0x00500093 State.reset) 1 = some 5#32 ∧ pc (run 0x00500093 State.reset) = some 0x80000004#32 := by
  decide +kernel

/-! ## Atomics: 95_test_vectors.md 3.7 -/

/-- The start of each row of 95_test_vectors.md 3.7. -/
def memory37 (x10 x6 : Word) (resv : Option Word) : State :=
  machine 0x80000010#32 [(10, x10), (6, x6), (5, 0x55#32), (7, 0x77#32)]
    [(0x80000200, 5#8), (0x80000201, 0#8), (0x80000202, 0#8), (0x80000203, 0#8)] resv

/-- The word at 80000200 after the step, as written bytes. -/
def word200 (r : Result) : Option (List (Option Byte)) := cells r 0x80000200 4

theorem test_lr_w :
    reg (run 0x100522AF (memory37 0x80000200#32 9#32 none)) 5 = some 5#32 ∧
      resvOf (run 0x100522AF (memory37 0x80000200#32 9#32 none)) = some (some 0x80000200#32) ∧
      (fatalOf (run 0x100522AF (memory37 0x807FFFFD#32 9#32 (some 0x80000200#32)))).map
          (fun p => (p.1, p.2.readReg 5, p.2.ctx.resv)) =
        some (.memoryViolation, 0x55#32, some 0x80000200#32) := by decide +kernel

theorem test_sc_w_succeeds :
    word200 (run 0x186523AF (memory37 0x80000200#32 9#32 (some 0x80000200#32))) =
        some [some 9#8, some 0#8, some 0#8, some 0#8] ∧
      reg (run 0x186523AF (memory37 0x80000200#32 9#32 (some 0x80000200#32))) 7 = some 0#32 ∧
      resvOf (run 0x186523AF (memory37 0x80000200#32 9#32 (some 0x80000200#32))) = some none := by decide +kernel

/-- SC.W with no reservation, with another one, and outside the window. -/
theorem test_sc_w_fails :
    reg (run 0x186523AF (memory37 0x80000200#32 9#32 none)) 7 = some 1#32 ∧
      word200 (run 0x186523AF (memory37 0x80000200#32 9#32 (some 0x80000204#32))) =
        some [some 5#8, some 0#8, some 0#8, some 0#8] ∧
      resvOf (run 0x186523AF (memory37 0x80000200#32 9#32 (some 0x80000204#32))) = some none ∧
      reg (run 0x186523AF (memory37 0x00000000#32 9#32 none)) 7 = some 1#32 ∧
      (fatalOf (run 0x186523AF (memory37 0x00000000#32 9#32 (some 0#32)))).map (fun p => (p.1, p.2.readReg 7)) =
        some (.memoryViolation, 0x77#32) := by decide +kernel

theorem test_amoswap_w :
    reg (run 0x086522AF (memory37 0x80000200#32 0x00000009#32 (some 0x80000200#32))) 5 = some 5#32 ∧
      word200 (run 0x086522AF (memory37 0x80000200#32 0x00000009#32 (some 0x80000200#32))) =
        some [some 0x09#8, some 0x00#8, some 0x00#8, some 0x00#8] ∧
      resvOf (run 0x086522AF (memory37 0x80000200#32 0x00000009#32 (some 0x80000200#32))) = some none := by
        decide +kernel

theorem test_amoadd_w :
    reg (run 0x006522AF (memory37 0x80000200#32 0x00000009#32 (some 0x80000200#32))) 5 = some 5#32 ∧
      word200 (run 0x006522AF (memory37 0x80000200#32 0x00000009#32 (some 0x80000200#32))) =
        some [some 0x0E#8, some 0x00#8, some 0x00#8, some 0x00#8] ∧
      resvOf (run 0x006522AF (memory37 0x80000200#32 0x00000009#32 (some 0x80000200#32))) = some none := by
        decide +kernel

theorem test_amoxor_w :
    reg (run 0x206522AF (memory37 0x80000200#32 0x00000009#32 (some 0x80000200#32))) 5 = some 5#32 ∧
      word200 (run 0x206522AF (memory37 0x80000200#32 0x00000009#32 (some 0x80000200#32))) =
        some [some 0x0C#8, some 0x00#8, some 0x00#8, some 0x00#8] ∧
      resvOf (run 0x206522AF (memory37 0x80000200#32 0x00000009#32 (some 0x80000200#32))) = some none := by
        decide +kernel

theorem test_amoand_w :
    reg (run 0x606522AF (memory37 0x80000200#32 0x00000009#32 (some 0x80000200#32))) 5 = some 5#32 ∧
      word200 (run 0x606522AF (memory37 0x80000200#32 0x00000009#32 (some 0x80000200#32))) =
        some [some 0x01#8, some 0x00#8, some 0x00#8, some 0x00#8] ∧
      resvOf (run 0x606522AF (memory37 0x80000200#32 0x00000009#32 (some 0x80000200#32))) = some none := by
        decide +kernel

theorem test_amoor_w :
    reg (run 0x406522AF (memory37 0x80000200#32 0x00000009#32 (some 0x80000200#32))) 5 = some 5#32 ∧
      word200 (run 0x406522AF (memory37 0x80000200#32 0x00000009#32 (some 0x80000200#32))) =
        some [some 0x0D#8, some 0x00#8, some 0x00#8, some 0x00#8] ∧
      resvOf (run 0x406522AF (memory37 0x80000200#32 0x00000009#32 (some 0x80000200#32))) = some none := by
        decide +kernel

theorem test_amomax_w :
    reg (run 0xA06522AF (memory37 0x80000200#32 0xFFFFFFFD#32 (some 0x80000200#32))) 5 = some 5#32 ∧
      word200 (run 0xA06522AF (memory37 0x80000200#32 0xFFFFFFFD#32 (some 0x80000200#32))) =
        some [some 0x05#8, some 0x00#8, some 0x00#8, some 0x00#8] ∧
      resvOf (run 0xA06522AF (memory37 0x80000200#32 0xFFFFFFFD#32 (some 0x80000200#32))) = some none := by
        decide +kernel

theorem test_amomin_w :
    reg (run 0x806522AF (memory37 0x80000200#32 0xFFFFFFFD#32 (some 0x80000200#32))) 5 = some 5#32 ∧
      word200 (run 0x806522AF (memory37 0x80000200#32 0xFFFFFFFD#32 (some 0x80000200#32))) =
        some [some 0xFD#8, some 0xFF#8, some 0xFF#8, some 0xFF#8] ∧
      resvOf (run 0x806522AF (memory37 0x80000200#32 0xFFFFFFFD#32 (some 0x80000200#32))) = some none := by
        decide +kernel

/-- AMOSWAP with rd = rs2 stores the old x6; AMOADD with rd = 0 writes no register (95_test_vectors.md 3.7). -/
theorem test_amo_register_corners :
    reg (run 0x0865232F (memory37 0x80000200#32 9#32 none)) 6 = some 5#32 ∧
      word200 (run 0x0865232F (memory37 0x80000200#32 9#32 none)) = some [some 9#8, some 0#8, some 0#8, some 0#8] ∧
      word200 (run 0x0065202F (memory37 0x80000200#32 9#32 none)) =
        some [some 0x0E#8, some 0#8, some 0#8, some 0#8] := by decide +kernel

/-- A store ends the reservation exactly when the written range contains its address (95_test_vectors.md 3.7). -/
theorem test_store_and_reservation :
    resvOf (run 0x000500A3 (memory37 0x80000200#32 9#32 (some 0x80000200#32))) = some (some 0x80000200#32) ∧
      resvOf (run 0x00050023 (memory37 0x80000200#32 9#32 (some 0x80000200#32))) = some none ∧
      resvOf (run 0xFE052F23 (memory37 0x80000200#32 9#32 (some 0x80000200#32))) = some none := by decide +kernel

/-! ## The host's operations -/

/-- 95_test_vectors.md S5: the window's edges. -/
theorem test_host_bounds :
    (State.reset.hostRead 0x7FFFFFFF).isOk = false ∧ (State.reset.hostRead 0x80800000).isOk = false ∧
      (State.reset.hostRead 0x80000000).isOk = true ∧ (State.reset.hostRead 0x807FFFFF).isOk = true := by
  refine ⟨by decide, by decide, rfl, rfl⟩

/-- 95_test_vectors.md S6: more bytes than the region holds. -/
theorem test_load_program_capacity :
    State.reset.loadProgram [1#8, 2#8] 0x80000000 1 false = .error .resourceExhausted := rfl

/-- Writing register 0 at the host interface returns 0 and changes nothing (10_state.md R22); `sp` is register 2. -/
theorem test_host_registers :
    (freshContext Config.default).hostWriteReg 0 5#32 = (freshContext Config.default, 0#32) ∧
      ((freshContext Config.default).hostWriteName .sp 5#32).1.readReg 2 = 5#32 := by decide +kernel

/-! ## Witnesses: a state and operands that meet the hypotheses of each statement, clause by clause -/

/-- A machine with nothing reported, its pc at the start of the window. -/
def w0 : State := machine 0x80000000#32 [(2, 0x80000100#32)] [] none

theorem test_witness_DecodeOfEncodeIsTheInstruction :
    Instr.wf (.beq 1 2 0x1000) = true ∧
      Instr.wf (.jal 1 0x1FFFFE) = true ∧
      (Instr.isMultiply (.add 1 2 3) = true → false = true) ∧
      Instr.wf (.mul 10 11 12) = true ∧
      (Instr.isMultiply (.mul 10 11 12) = true → true = true) := by decide +kernel

theorem test_witness_EncodeOfDecodeIsTheWord :
    decode false 0x003100B3#32 = some (.add 1 2 3) ∧
      decode true 0x02C58533#32 = some (.mul 10 11 12) ∧
      decode true 0x00000573#32 = some (.ecall 10 0) := by decide +kernel

theorem test_witness_RegisterRowsDecode :
    0x003100B3#32 &&& 0xFE00707F#32 = 0x00000033#32 ∧
      0x407302B3#32 &&& 0xFE00707F#32 = 0x40000033#32 ∧
      0x003110B3#32 &&& 0xFE00707F#32 = 0x00001033#32 ∧
      0x003120B3#32 &&& 0xFE00707F#32 = 0x00002033#32 ∧
      0x003130B3#32 &&& 0xFE00707F#32 = 0x00003033#32 ∧
      0x003140B3#32 &&& 0xFE00707F#32 = 0x00004033#32 ∧
      0x003150B3#32 &&& 0xFE00707F#32 = 0x00005033#32 ∧
      0x403150B3#32 &&& 0xFE00707F#32 = 0x40005033#32 ∧
      0x003160B3#32 &&& 0xFE00707F#32 = 0x00006033#32 ∧
      0x003170B3#32 &&& 0xFE00707F#32 = 0x00007033#32 ∧
      (0x40001033#32).extractLsb' 0 7 = 0b0110011#7 ∧
      (0x40001033#32).extractLsb' 25 7 ≠ 1#7 ∧
      ([0x00000033#32, 0x40000033#32, 0x00001033#32, 0x00002033#32, 0x00003033#32,
      0x00004033#32, 0x00005033#32, 0x40005033#32, 0x00006033#32, 0x00007033#32] : List Word).all
        (fun b => 0x40001033#32 &&& 0xFE00707F#32 != b) = true := by decide +kernel

theorem test_witness_MultiplyRowsDecodeOnlyWhenRegistered :
    0x02C58533#32 &&& 0xFE00707F#32 = 0x02000033#32 ∧
      0x02C59533#32 &&& 0xFE00707F#32 = 0x02001033#32 ∧
      0x02C5A533#32 &&& 0xFE00707F#32 = 0x02002033#32 ∧
      0x02C5B533#32 &&& 0xFE00707F#32 = 0x02003033#32 ∧
      0x02C5C533#32 &&& 0xFE00707F#32 = 0x02004033#32 ∧
      0x02C5D533#32 &&& 0xFE00707F#32 = 0x02005033#32 ∧
      0x02C5E533#32 &&& 0xFE00707F#32 = 0x02006033#32 ∧
      0x02C5F533#32 &&& 0xFE00707F#32 = 0x02007033#32 ∧
      (0x02C5F533#32).extractLsb' 0 7 = 0b0110011#7 ∧
      (0x02C5F533#32).extractLsb' 25 7 = 1#7 := by decide +kernel

theorem test_witness_ImmediateRowsDecode :
    0xFFF10093#32 &&& 0x0000707F#32 = 0x00000013#32 ∧
      0x01F11093#32 &&& 0xFE00707F#32 = 0x00001013#32 ∧
      0xFFF12093#32 &&& 0x0000707F#32 = 0x00002013#32 ∧
      0xFFF13093#32 &&& 0x0000707F#32 = 0x00003013#32 ∧
      0xFFF14093#32 &&& 0x0000707F#32 = 0x00004013#32 ∧
      0x00415093#32 &&& 0xFE00707F#32 = 0x00005013#32 ∧
      0x40415093#32 &&& 0xFE00707F#32 = 0x40005013#32 ∧
      0x0F016093#32 &&& 0x0000707F#32 = 0x00006013#32 ∧
      0x0FF17093#32 &&& 0x0000707F#32 = 0x00007013#32 ∧
      (0x02001013#32).extractLsb' 0 7 = 0b0010011#7 ∧
      (0x02001013#32).extractLsb' 12 3 = 0b001#3 ∧
      (0x02001013#32).extractLsb' 25 7 ≠ 0#7 ∧
      (0x20005013#32).extractLsb' 0 7 = 0b0010011#7 ∧
      (0x20005013#32).extractLsb' 12 3 = 0b101#3 ∧
      (0x20005013#32).extractLsb' 25 7 ≠ 0#7 ∧
      (0x20005013#32).extractLsb' 25 7 ≠ 0b0100000#7 := by decide +kernel

theorem test_witness_LoadAndStoreRowsDecode :
    0xFFC10283#32 &&& 0x0000707F#32 = 0x00000003#32 ∧
      0x00211283#32 &&& 0x0000707F#32 = 0x00001003#32 ∧
      0x00812283#32 &&& 0x0000707F#32 = 0x00002003#32 ∧
      0xFFC14283#32 &&& 0x0000707F#32 = 0x00004003#32 ∧
      0x00215283#32 &&& 0x0000707F#32 = 0x00005003#32 ∧
      0xFE510FA3#32 &&& 0x0000707F#32 = 0x00000023#32 ∧
      0x00511323#32 &&& 0x0000707F#32 = 0x00001023#32 ∧
      0xFE512C23#32 &&& 0x0000707F#32 = 0x00002023#32 ∧
      (0x00003003#32).extractLsb' 0 7 = 0b0000011#7 ∧
      (0x00003003#32).extractLsb' 12 3 ∈ [0b011#3, 0b110#3, 0b111#3] ∧
      (0x00007003#32).extractLsb' 12 3 ∈ [0b011#3, 0b110#3, 0b111#3] ∧
      (0x00003023#32).extractLsb' 0 7 = 0b0100011#7 ∧
      (0x00003023#32).extractLsb' 12 3 ∈ [0b011#3, 0b100#3, 0b101#3, 0b110#3, 0b111#3] ∧
      (0x00007023#32).extractLsb' 12 3 ∈ [0b011#3, 0b100#3, 0b101#3, 0b110#3, 0b111#3] := by decide +kernel

theorem test_witness_BranchRowsDecode :
    0x00208463#32 &&& 0x0000707F#32 = 0x00000063#32 ∧
      0xFE209EE3#32 &&& 0x0000707F#32 = 0x00001063#32 ∧
      0xFE20CCE3#32 &&& 0x0000707F#32 = 0x00004063#32 ∧
      0x0020D863#32 &&& 0x0000707F#32 = 0x00005063#32 ∧
      0x7E20EFE3#32 &&& 0x0000707F#32 = 0x00006063#32 ∧
      0x8020F063#32 &&& 0x0000707F#32 = 0x00007063#32 ∧
      (0x00002063#32).extractLsb' 0 7 = 0b1100011#7 ∧
      (0x00002063#32).extractLsb' 12 3 ∈ [0b010#3, 0b011#3] ∧
      (0x00003063#32).extractLsb' 12 3 ∈ [0b010#3, 0b011#3] := by decide +kernel

theorem test_witness_UpperAndJumpRowsDecode :
    0x123452B7#32 &&& 0x0000007F#32 = 0x00000037#32 ∧
      0xFFFFF297#32 &&& 0x0000007F#32 = 0x00000017#32 ∧
      0x800000EF#32 &&& 0x0000007F#32 = 0x0000006F#32 ∧
      0xFFD280E7#32 &&& 0x0000707F#32 = 0x00000067#32 ∧
      (0x00001067#32).extractLsb' 0 7 = 0b1100111#7 ∧
      (0x00001067#32).extractLsb' 12 3 ≠ 0#3 := by decide +kernel

theorem test_witness_SystemAndAtomicRowsDecode :
    0x00000573#32 &&& 0xFFF0707F#32 = 0x00000073#32 ∧
      0x00100FF3#32 &&& 0xFFF0707F#32 = 0x00100073#32 ∧
      0x006522AF#32 &&& 0xF800707F#32 = 0x0000202F#32 ∧
      0x086522AF#32 &&& 0xF800707F#32 = 0x0800202F#32 ∧
      0x1605252F#32 &&& 0xF800707F#32 = 0x1000202F#32 ∧
      0x1875232F#32 &&& 0xF800707F#32 = 0x1800202F#32 ∧
      0x206522AF#32 &&& 0xF800707F#32 = 0x2000202F#32 ∧
      0x406522AF#32 &&& 0xF800707F#32 = 0x4000202F#32 ∧
      0x606522AF#32 &&& 0xF800707F#32 = 0x6000202F#32 ∧
      0x806522AF#32 &&& 0xF800707F#32 = 0x8000202F#32 ∧
      0xA06522AF#32 &&& 0xF800707F#32 = 0xA000202F#32 ∧
      (0xC0001073#32).extractLsb' 0 7 = 0b1110011#7 ∧
      (0xC0001073#32).extractLsb' 12 3 ≠ 0#3 ∧
      (0x30200073#32).extractLsb' 0 7 = 0b1110011#7 ∧
      (0x30200073#32).extractLsb' 20 12 ≠ 0#12 ∧
      (0x30200073#32).extractLsb' 20 12 ≠ 1#12 ∧
      (0x1000302F#32).extractLsb' 0 7 = 0b0101111#7 ∧
      (0x1000302F#32).extractLsb' 12 3 ≠ 0b010#3 ∧
      (0xC000202F#32).extractLsb' 0 7 = 0b0101111#7 ∧
      (0xC000202F#32).extractLsb' 27 5 ∉ [0b00000#5, 0b00001#5, 0b00010#5, 0b00011#5, 0b00100#5, 0b01000#5,
      0b01100#5, 0b10000#5, 0b10100#5] := by decide +kernel

theorem test_witness_OtherWordsDecodeToNone :
    (0x0FF0000F#32).extractLsb' 0 7 ∉ [0b0110011#7, 0b0010011#7, 0b0000011#7, 0b0100011#7, 0b1100011#7, 0b0110111#7,
      0b0010111#7, 0b1101111#7, 0b1100111#7, 0b1110011#7, 0b0101111#7] := by decide +kernel

theorem test_witness_RegisterZeroIsHardwired :
    (31#5 : Reg) ≠ 0#5 ∧
      (1#5 : Reg) ≠ 31#5 := by decide +kernel

theorem test_witness_SignedDivisionNeverFaults :
    ((base [(3, 0xFFFFFFFF#32)]).readReg 3).toInt ≠ 0 := by decide +kernel

theorem test_witness_SignedLoadsAndLoadWord :
    (memory34 0x807FFFFF#32 []).cfg.admits (effectiveAddress (memory34 0x807FFFFF#32 []) 2 0).toNat 1 ∧
      (memory34 0x80000004#32 []).cfg.admits (effectiveAddress (memory34 0x80000004#32 []) 2 0xFFC).toNat 1 ∧
      (memory34 0x807FFFFE#32 []).cfg.admits (effectiveAddress (memory34 0x807FFFFE#32 []) 2 0).toNat 2 ∧
      (memory34 0x807FFFFC#32 []).cfg.admits (effectiveAddress (memory34 0x807FFFFC#32 []) 2 0).toNat 4 := by
        decide +kernel

theorem test_witness_UnsignedLoadsZeroExtend :
    (memory34 0x807FFFFF#32 []).cfg.admits (effectiveAddress (memory34 0x807FFFFF#32 []) 2 0).toNat 1 ∧
      (memory34 0x80000004#32 []).cfg.admits (effectiveAddress (memory34 0x80000004#32 []) 2 0xFFC).toNat 1 ∧
      (memory34 0x807FFFFE#32 []).cfg.admits (effectiveAddress (memory34 0x807FFFFE#32 []) 2 0).toNat 2 := by
        decide +kernel

theorem test_witness_LoadsOutsideTheWindowChangeNothing :
    ¬(memory34 0x80800000#32 []).cfg.admits (effectiveAddress (memory34 0x80800000#32 []) 2 0).toNat 1 ∧
      ¬(memory34 0x80000000#32 []).cfg.admits (effectiveAddress (memory34 0x80000000#32 []) 2 0xFFF).toNat 1 ∧
      ¬(memory34 0x807FFFFF#32 []).cfg.admits (effectiveAddress (memory34 0x807FFFFF#32 []) 2 0).toNat 2 ∧
      ¬(memory34 0x807FFFFD#32 []).cfg.admits (effectiveAddress (memory34 0x807FFFFD#32 []) 2 0).toNat 4 ∧
      ¬(memory34 0xFFFFFFFE#32 []).cfg.admits (effectiveAddress (memory34 0xFFFFFFFE#32 []) 2 0).toNat 4 := by
        decide +kernel

theorem test_witness_StoresWriteExactlyTheirBytes :
    (memory34 0x807FFFFF#32 []).cfg.admits (effectiveAddress (memory34 0x807FFFFF#32 []) 2 0).toNat 1 ∧
      (memory34 0x807FFFFE#32 []).cfg.admits (effectiveAddress (memory34 0x807FFFFE#32 []) 2 0).toNat 2 ∧
      (memory34 0x807FFFFC#32 []).cfg.admits (effectiveAddress (memory34 0x807FFFFC#32 []) 2 0).toNat 4 ∧
      (memory34 0x80000004#32 []).cfg.admits (effectiveAddress (memory34 0x80000004#32 []) 2 0xFFC).toNat 4 := by
        decide +kernel

theorem test_witness_StoresOutsideTheWindowWriteNothing :
    ¬(memory34 0x80800000#32 []).cfg.admits (effectiveAddress (memory34 0x80800000#32 []) 2 0).toNat 1 ∧
      ¬(memory34 0x807FFFFF#32 []).cfg.admits (effectiveAddress (memory34 0x807FFFFF#32 []) 2 0).toNat 2 ∧
      ¬(memory34 0x807FFFFD#32 []).cfg.admits (effectiveAddress (memory34 0x807FFFFD#32 []) 2 0).toNat 4 ∧
      ¬(memory34 0x80000000#32 []).cfg.admits (effectiveAddress (memory34 0x80000000#32 []) 2 0xFFC).toNat 4 := by
        decide +kernel

theorem test_witness_LoadAfterStoreReturnsTheWord :
    (memory34 0x807FFFFC#32 []).cfg.admits (effectiveAddress (memory34 0x807FFFFC#32 []) 2 0).toNat 4 := by
      decide +kernel

theorem test_witness_StoreIntoTheNextInstructionIsFetched :
    effectiveAddress (memory34 0x80000010#32 []) 2 0 = (memory34 0x80000010#32 []).ctx.pc ∧
      (memory34 0x80000010#32 []).cfg.admits (effectiveAddress (memory34 0x80000010#32 []) 2 0).toNat 4 := by
        decide +kernel

theorem test_witness_LoadReservedSetsTheReservation :
    (memory37 0x807FFFFC#32 9#32 none).cfg.admits ((memory37 0x807FFFFC#32 9#32 none).readReg 10).toNat 4 ∧
      (memory37 0x80000001#32 9#32 none).cfg.admits ((memory37 0x80000001#32 9#32 none).readReg 10).toNat 4 := by
        decide +kernel

theorem test_witness_StoreConditionalSucceedsOnItsReservation :
    (memory37 0x807FFFFC#32 9#32 (some 0x807FFFFC#32)).ctx.resv = some
      ((memory37 0x807FFFFC#32 9#32 (some 0x807FFFFC#32)).readReg 10) ∧
      (memory37 0x807FFFFC#32 9#32 (some 0x807FFFFC#32)).cfg.admits
        ((memory37 0x807FFFFC#32 9#32 (some 0x807FFFFC#32)).readReg 10).toNat 4 := by decide +kernel

theorem test_witness_StoreConditionalFailsWithoutItsReservation :
    (memory37 0x80000200#32 9#32 none).ctx.resv ≠ some ((memory37 0x80000200#32 9#32 none).readReg 10) ∧
      (memory37 0x80000200#32 9#32 (some 0x80000204#32)).ctx.resv ≠ some
        ((memory37 0x80000200#32 9#32 (some 0x80000204#32)).readReg 10) ∧
      (memory37 0x00000000#32 9#32 none).ctx.resv ≠ some ((memory37 0x00000000#32 9#32 none).readReg 10) := by
        decide +kernel

theorem test_witness_AmosWriteTheOperationAndReturnTheOldWord :
    (memory37 0x80000000#32 9#32 none).cfg.admits ((memory37 0x80000000#32 9#32 none).readReg 10).toNat 4 ∧
      (memory37 0x807FFFFC#32 9#32 none).cfg.admits ((memory37 0x807FFFFC#32 9#32 none).readReg 10).toNat 4 := by
        decide +kernel

theorem test_witness_AmoMaxAndMinCompareAsSigned :
    (memory37 0x80000000#32 9#32 none).cfg.admits ((memory37 0x80000000#32 9#32 none).readReg 10).toNat 4 ∧
      (memory37 0x807FFFFC#32 9#32 none).cfg.admits ((memory37 0x807FFFFC#32 9#32 none).readReg 10).toNat 4 := by
        decide +kernel

theorem test_witness_AtomicsOutsideTheWindowChangeNothing :
    ¬(memory37 0x807FFFFD#32 9#32 none).cfg.admits ((memory37 0x807FFFFD#32 9#32 none).readReg 10).toNat 4 ∧
      ¬(memory37 0x00000000#32 9#32 (some 0#32)).cfg.admits
        ((memory37 0x00000000#32 9#32 (some 0#32)).readReg 10).toNat 4 ∧
      (memory37 0x00000000#32 9#32 (some 0#32)).ctx.resv = some
        ((memory37 0x00000000#32 9#32 (some 0#32)).readReg 10) := by decide +kernel

/-- exec answers next for LR.W, for SC.W and for an instruction that neither stores nor is LR.W. -/
theorem test_witness_ReservationComesFromLoadReservedOnly :
    (∃ t, exec (.lrW false false 5 10 0) (memory37 0x80000200#32 9#32 none) = .next t ∧
        decide (t.ctx.resv = some 0x80000200#32) = true) ∧
      (∃ t, exec (.scW false false 7 10 6) (memory37 0x80000200#32 9#32 none) = .next t ∧ decide
        (t.ctx.resv = none) = true) ∧
      (∃ t, exec (.add 1 2 3) (memory37 0x80000200#32 9#32 (some 4#32)) = .next t ∧
        decide (t.ctx.resv = some 4#32) = true) ∧
      storesToMemory (.add 1 2 3) = false :=
  ⟨exists_next _ (by decide +kernel), exists_next _ (by decide +kernel), exists_next _ (by decide +kernel), rfl⟩

theorem test_witness_MemoryChangesByStoresOnly :
    (∃ t, exec (.lw 5 10 0) (memory37 0x80000200#32 9#32 none) = .next t ∧ decide (t.readReg 5 = 5#32) = true) ∧
      storesToMemory (.lw 5 10 0) = false :=
  ⟨exists_next _ (by decide +kernel), rfl⟩

theorem test_witness_OnlyBranchesAndJumpsWritePc :
    (∃ t, exec (.sw 10 6 0) (memory37 0x80000200#32 9#32 none) = .next t ∧ decide (t.ctx.pc = 0x80000010#32) = true) ∧
      transfersControl (.sw 10 6 0) = false :=
  ⟨exists_next _ (by decide +kernel), rfl⟩

/-- A machine ready to step, the given word at its pc. -/
def ready (w : Nat) : State := w0.withFetchWord 32 w

theorem test_ready (w : Nat) : (ready w).Ready := ⟨rfl, rfl, Or.inl rfl⟩

/-- The four bytes at pc. -/
def bytesAtPc (s : State) : List Byte :=
  [s.byteAt s.ctx.pc.toNat, s.byteAt (s.ctx.pc.toNat + 1), s.byteAt (s.ctx.pc.toNat + 2), s.byteAt
    (s.ctx.pc.toNat + 3)]

theorem test_witness_StepRunsTheDecodedInstruction :
    (ready 0x003100B3).Ready ∧ (ready 0x003100B3).cfg.admits (ready 0x003100B3).ctx.pc.toNat 4 ∧
      bytesAtPc (ready 0x003100B3) ≠ (ready 0x003100B3).cfg.trapSig ∧
      decode (ready 0x003100B3).cfg.mEnabled ((ready 0x003100B3).wordAt (ready 0x003100B3).ctx.pc.toNat) =
        some (.add 1 2 3) :=
  ⟨test_ready _, by decide +kernel, by decide +kernel, by decide +kernel⟩

theorem test_witness_FetchOutsideTheWindowChangesNothing :
    (machine 0x807FFFFD#32 [] [] none).Ready ∧
      ¬(machine 0x807FFFFD#32 [] [] none).cfg.admits (machine 0x807FFFFD#32 [] [] none).ctx.pc.toNat 4 :=
  ⟨⟨rfl, rfl, Or.inl rfl⟩, by decide +kernel⟩

theorem test_witness_TrapSignatureFinishesTheTask :
    (ready 0xEFBEADDE).Ready ∧ (ready 0xEFBEADDE).cfg.admits (ready 0xEFBEADDE).ctx.pc.toNat 4 ∧
      bytesAtPc (ready 0xEFBEADDE) = (ready 0xEFBEADDE).cfg.trapSig :=
  ⟨test_ready _, by decide +kernel, by decide +kernel⟩

theorem test_witness_InvalidWordIsFatal :
    (ready 0x0FF0000F).Ready ∧ (ready 0x0FF0000F).cfg.admits (ready 0x0FF0000F).ctx.pc.toNat 4 ∧
      bytesAtPc (ready 0x0FF0000F) ≠ (ready 0x0FF0000F).cfg.trapSig ∧
      decode (ready 0x0FF0000F).cfg.mEnabled ((ready 0x0FF0000F).wordAt (ready 0x0FF0000F).ctx.pc.toNat) = none :=
  ⟨test_ready _, by decide +kernel, by decide +kernel, by decide +kernel⟩

theorem test_witness_ContractViolationsAreRefused : State.reset.cpuState = .vacant ∧ w0.cpuState = .running :=
  ⟨rfl, rfl⟩

/-- A machine whose policy is `refuse`, at an unaligned pc. -/
def refusing : State := { machine 0x80000002#32 [] [] none with cfg := { Config.default with pcAlignPolicy :=
  .refuse } }

theorem test_witness_StepsWithoutMeaningStop :
    (w0.setReport (some (.fatal .memoryViolation))).cpuState = .running ∧
      (w0.setReport (some (.fatal .memoryViolation))).report = some (.fatal .memoryViolation) ∧
      refusing.cpuState = .running ∧ refusing.report = none ∧ refusing.cfg.pcAlignPolicy = .refuse ∧
      refusing.ctx.pc.toNat % 4 ≠ 0 := by decide +kernel

theorem test_witness_StepKeepsTheMachineInvariant :
    (ready 0x00512023).Inv ∧ ∃ t, step (ready 0x00512023) = .next t ∧ decide (t.ctx.pc = 0x80000004#32) = true :=
  ⟨⟨by decide +kernel, by decide +kernel, by decide +kernel, by decide +kernel, fun _ => Or.inl rfl⟩,
    exists_next _ (by decide +kernel)⟩

/-- With a reservation at the last word of the window, and with none before an LR.W sets it. -/
theorem test_witness_StepKeepsTheReservationInTheWindow :
    ((ready 0x00000013).setResv (some 0x807FFFFC#32)).resvInWindow ∧
      (∃ t, step ((ready 0x00000013).setResv (some 0x807FFFFC#32)) = .next t ∧
        decide (t.ctx.resv = some 0x807FFFFC#32) = true) ∧
      ((memory37 0x80000200#32 9#32 none).withFetchWord 32 0x100522AF).resvInWindow ∧
      ∃ t, step ((memory37 0x80000200#32 9#32 none).withFetchWord 32 0x100522AF) = .next t ∧
        decide (t.ctx.resv = some 0x80000200#32) = true := by
  refine ⟨?_, exists_next _ (by decide +kernel), ?_, exists_next _ (by decide +kernel)⟩
  · intro r h; cases h; decide +kernel
  · intro r h; cases h

/-- A step that continues, one that pauses and one that finishes. -/
theorem test_witness_StepContinuesOrReportsAnEvent :
    (∃ t, step (ready 0x00000013) = .next t ∧ decide (t.report = none) = true) ∧
      (∃ t, step (ready 0x00100073) = .next t ∧ decide (t.report = some (.event (.pauseTask .envBreak))) = true) ∧
      (∃ t, step (ready 0xEFBEADDE) = .next t ∧ decide (t.report = some (.event .taskFinished)) = true) ∧
      (ready 0x00000013).report = none ∧ (ready 0x00100073).report = none ∧ (ready 0xEFBEADDE).report = none :=
  ⟨exists_next _ (by decide +kernel), exists_next _ (by decide +kernel), exists_next _ (by decide +kernel), rfl,
    rfl, rfl⟩

/-- A fetch outside the window, an invalid word, a load outside the window. -/
theorem test_witness_FatalErrorsLeaveTheStatePrecise :
    (∃ left, step (machine 0x80800000#32 [] [] none) = .fault (.fatalStepError .memoryViolation left)) ∧
      (∃ left, step (ready 0x0FF0000F) = .fault (.fatalStepError .invalidInstruction left)) ∧
      ∃ left, step (ready 0x00002283) = .fault (.fatalStepError .memoryViolation left) :=
  ⟨exists_fatal (by decide +kernel), exists_fatal (by decide +kernel), exists_fatal (by decide +kernel)⟩

theorem test_witness_AttachInstallsTheContextAsGiven : State.reset.cpuState = .vacant ∧ w0.cpuState = .running :=
  ⟨rfl, rfl⟩

theorem test_witness_ResumingContinuesAfterThePause :
    (ready 0x00100073).report = none ∧
      ∃ t, step (ready 0x00100073) = .next t ∧ decide (t.report = some (.event (.pauseTask .envBreak))) = true :=
  ⟨rfl, exists_next _ (by decide +kernel)⟩

/-- A first step that continues, one that reports, one that is fatal; a run of one step that ends with nothing
reported. -/
theorem test_witness_ExecuteShuttleStopsEarlyOrRunsAll :
    (ready 0x00000013).cpuState = .running ∧ (ready 0x00000013).report = none ∧
      (∃ t, step (ready 0x00000013) = .next t ∧ decide (t.report = none) = true) ∧
      (∃ t, step (ready 0x00000073) = .next t ∧ decide (t.report = some (.event (.pauseTask .envCall))) = true) ∧
      (∃ left, step (ready 0x0FF0000F) = .fault (.fatalStepError .invalidInstruction left)) ∧
      ∃ t, (executeShuttle 1 (ready 0x00000013)).result = .next t ∧ decide (t.report = none) = true :=
  ⟨rfl, rfl, exists_next _ (by decide +kernel), exists_next _ (by decide +kernel), exists_fatal (by decide +kernel),
    exists_next _ (by decide +kernel)⟩

/-- Bytes that exceed the region, a region that leaves the window, and one that ends exactly with it. -/
theorem test_witness_LoadProgramChecksCapacityThenBounds :
    1 < ([1#8, 2#8] : List Byte).length ∧
      ([1#8, 2#8] : List Byte).length ≤ 2 ∧ ¬State.reset.cfg.admits 0x807FFFFF 2 ∧
      State.reset.cfg.admits 0x807FFFFE 2 := by decide +kernel

theorem test_witness_AccessesAreAdmittedByTheWindowOnly : 0 < w0.cfg.memBase ∧ 0 < w0.cfg.memSize := by decide +kernel

end Sys2Proof.Tests
end

section
/-! Settles the obligation on the register file (10_state.md R21, R22) from the rules of Sys2Proof/Laws/. -/

namespace Sys2Proof.Machine

/-- What a register other than register 0 reads after it was written. -/
theorem Context.readReg_writeReg_same (c : Context) {i : Reg} (hi : i ≠ 0#5) (v : Word) :
    (c.writeReg i v).readReg i = v := by
  rw [Context.readReg_writeReg, if_neg hi, if_pos rfl]

/-- The frame of a register write in the register file; it covers a read of register 0. -/
theorem Context.readReg_writeReg_of_ne (c : Context) {i j : Reg} (hij : j ≠ i) (v : Word) :
    (c.writeReg i v).readReg j = c.readReg j := by
  rw [Context.readReg_writeReg, if_neg hij]
  by_cases hj : j = 0#5
  · rw [if_pos hj, hj, Context.readReg_zero]
  · rw [if_neg hj]

/-- The host's write is the CPU's write, and it answers the value that the register read before. -/
theorem Context.hostWriteReg_eq (c : Context) (i : Reg) (v : Word) :
    c.hostWriteReg i v = (c.writeReg i v, c.readReg i) := rfl

/-- Settles O13: register 0 by the two rules for register 0, every other register by the rules for a read of the
written and of another register. -/
theorem registerZeroIsHardwired : Obligations.RegisterZeroIsHardwired := by
  intro c i v
  refine ⟨c.readReg_zero, ?hostZero, c.writeReg_zero v, ?nonzero, c.writeReg_pc i v, c.writeReg_ir i v,
    c.writeReg_resv i v⟩
  case hostZero =>
    rw [Context.hostWriteReg_eq, Context.writeReg_zero, Context.readReg_zero]
  case nonzero =>
    exact fun hi => ⟨c.readReg_writeReg_same hi v, fun _ hj => c.readReg_writeReg_of_ne hj v, c.hostWriteReg_eq i v⟩

end Sys2Proof.Machine
end

section
/-! The decoder from its two ends: on the words of the encoder it answers the encoded instruction, and a word under a
row's mask is the encoder's word for the row's instruction with the fields of the word (30_encoding.md R88). -/

namespace Sys2Proof

/-! Dispatch on the opcode. -/

theorem decode_of_opcode_op (m : Bool) {w : Word} (ho : fieldOpcode w = 0b0110011#7) :
    decode m w = (decodeOp m w).toOption := by simp only [decode, decodeWord, ho]

theorem decode_of_opcode_opImm (m : Bool) {w : Word} (ho : fieldOpcode w = 0b0010011#7) :
    decode m w = (decodeOpImm w).toOption := by simp only [decode, decodeWord, ho]

theorem decode_of_opcode_load (m : Bool) {w : Word} (ho : fieldOpcode w = 0b0000011#7) :
    decode m w = (decodeLoad w).toOption := by simp only [decode, decodeWord, ho]

theorem decode_of_opcode_store (m : Bool) {w : Word} (ho : fieldOpcode w = 0b0100011#7) :
    decode m w = (decodeStore w).toOption := by simp only [decode, decodeWord, ho]

theorem decode_of_opcode_branch (m : Bool) {w : Word} (ho : fieldOpcode w = 0b1100011#7) :
    decode m w = (decodeBranch w).toOption := by simp only [decode, decodeWord, ho]

theorem decode_of_opcode_jalr (m : Bool) {w : Word} (ho : fieldOpcode w = 0b1100111#7) :
    decode m w = (decodeJalr w).toOption := by simp only [decode, decodeWord, ho]

/-! Decoding the encoder's words. -/

/-- No bit of an encoding is lost: branches and JAL need bit 0 of the offset to be 0 (R85, R87), multiply and divide the
registered decoder (R90). -/
theorem decode_encode {m : Bool} (i : Instr) (hwf : i.wf = true) (hmul : i.isMultiply = true → m = true) :
    decode m (encode i) = some i := by
  cases i
  case add | sub | xor | or | and | sll | srl | sra | slt | sltu =>
    rw [encode, decode_of_opcode_op m (fieldOpcode_encodeR ..)]
    simp [decodeOp, decodeOp00, decodeOp20, Except.toOption]
  case mul | mulh | mulhsu | mulhu | div | divu | rem | remu =>
    rw [encode, decode_of_opcode_op m (fieldOpcode_encodeR ..)]
    simp [decodeOp, decodeMultiply, Except.toOption, hmul rfl]
  case addi | slti | sltiu | xori | ori | andi =>
    rw [encode, decode_of_opcode_opImm m (fieldOpcode_encodeI ..)]
    simp [decodeOpImm, Except.toOption]
  case slli | srli | srai =>
    rw [encode, encodeShift_eq, decode_of_opcode_opImm m (fieldOpcode_encodeR ..)]
    simp [decodeOpImm, decodeSlli, decodeSri, Except.toOption]
  case lb | lh | lw | lbu | lhu =>
    rw [encode, decode_of_opcode_load m (fieldOpcode_encodeI ..)]
    simp [decodeLoad, Except.toOption]
  case sb | sh | sw =>
    rw [encode, decode_of_opcode_store m (fieldOpcode_encodeS ..)]
    simp [decodeStore, Except.toOption]
  case beq | bne | blt | bge | bltu | bgeu =>
    rw [encode, decode_of_opcode_branch m (fieldOpcode_encodeB ..)]
    simp [decodeBranch, Except.toOption, fieldImmB_encodeB _ _ _ _ _ (by simpa [Instr.wf] using hwf)]
  case lui | auipc => simp [encode, decode, decodeWord, Except.toOption]
  case jal =>
    simp [encode, decode, decodeWord, Except.toOption, fieldImmJ_encodeJ _ _ _ (by simpa [Instr.wf] using hwf)]
  case jalr =>
    rw [encode, decode_of_opcode_jalr m (fieldOpcode_encodeI ..)]
    simp [decodeJalr, Except.toOption]
  case ecall | ebreak => simp [encode, decode, decodeWord, decodeSystem, Except.toOption]
  case lrW | scW | amoswapW | amoaddW | amoxorW | amoandW | amoorW | amominW | amomaxW =>
    simp [encode, decode, decodeWord, decodeAtomic, decodeFunct5, Except.map, Except.toOption]

/-- A word that the encoder writes for an instruction decodes to it. -/
theorem decode_eq_some_of_encode_eq {m : Bool} {w : Word} {i : Instr} (hw : encode i = w) (hwf : i.wf = true)
    (hmul : i.isMultiply = true → m = true) : decode m w = some i :=
  hw ▸ decode_encode i hwf hmul

/-! A word under a row's mask is the row's layout with the word's own fields. -/

section
variable {w : Word} {f7 : BitVec 7} {f3 : BitVec 3} {op : BitVec 7}

/-- The mask `0xFE00707F` compares funct7, funct3 and the opcode (R89, R90). -/
theorem encodeR_eq_of_masked (h : w &&& 0xFE00707F#32 = encodeR f7 0#5 0#5 f3 0#5 op) :
    encodeR f7 (fieldRs2 w) (fieldRs1 w) f3 (fieldRd w) op = w := by
  have h7 : fieldFunct7 w = f7 := (extractLsb'_masked _ _ _ 25 7 h rfl).trans (fieldFunct7_encodeR ..)
  have h3 : fieldFunct3 w = f3 := (extractLsb'_masked _ _ _ 12 3 h rfl).trans (fieldFunct3_encodeR ..)
  have ho : fieldOpcode w = op := (extractLsb'_masked _ _ _ 0 7 h rfl).trans (fieldOpcode_encodeR ..)
  rw [← h7, ← h3, ← ho, encodeR_fields]

/-- The mask `0xFE00707F` of the shifts by an immediate (R91). -/
theorem encodeShift_eq_of_masked (h : w &&& 0xFE00707F#32 = encodeR f7 0#5 0#5 f3 0#5 op) :
    encodeShift f7 (fieldShamt w) (fieldRs1 w) f3 (fieldRd w) op = w :=
  (encodeShift_eq ..).trans (encodeR_eq_of_masked h)

/-- The mask `0x0000707F` compares funct3 and the opcode, in every format that has both (R91 to R95). -/
theorem selectors_of_masked (h : w &&& 0x0000707F#32 = encodeI 0#12 0#5 f3 0#5 op) :
    fieldFunct3 w = f3 ∧ fieldOpcode w = op :=
  ⟨(extractLsb'_masked _ _ _ 12 3 h rfl).trans (fieldFunct3_encodeI ..),
    (extractLsb'_masked _ _ _ 0 7 h rfl).trans (fieldOpcode_encodeI ..)⟩

theorem encodeI_eq_of_masked (h : w &&& 0x0000707F#32 = encodeI 0#12 0#5 f3 0#5 op) :
    encodeI (fieldImmI w) (fieldRs1 w) f3 (fieldRd w) op = w := by
  obtain ⟨rfl, rfl⟩ := selectors_of_masked h
  exact encodeI_fields w

theorem encodeS_eq_of_masked (h : w &&& 0x0000707F#32 = encodeI 0#12 0#5 f3 0#5 op) :
    encodeS (fieldImmS w) (fieldRs2 w) (fieldRs1 w) f3 op = w := by
  obtain ⟨rfl, rfl⟩ := selectors_of_masked h
  exact encodeS_fields w

theorem encodeB_eq_of_masked (h : w &&& 0x0000707F#32 = encodeI 0#12 0#5 f3 0#5 op) :
    encodeB (fieldImmB w) (fieldRs2 w) (fieldRs1 w) f3 op = w := by
  obtain ⟨rfl, rfl⟩ := selectors_of_masked h
  exact encodeB_fields w

theorem encodeU_eq_of_masked (h : w &&& 0x0000007F#32 = encodeU 0#20 0#5 op) :
    encodeU (fieldImmU w) (fieldRd w) op = w := by
  have ho : fieldOpcode w = op := (extractLsb'_masked _ _ _ 0 7 h rfl).trans (fieldOpcode_encodeU ..)
  rw [← ho, encodeU_fields]

theorem encodeJ_eq_of_masked (h : w &&& 0x0000007F#32 = encodeU 0#20 0#5 op) :
    encodeJ (fieldImmJ w) (fieldRd w) op = w := by
  have ho : fieldOpcode w = op := (extractLsb'_masked _ _ _ 0 7 h rfl).trans (fieldOpcode_encodeU ..)
  rw [← ho, encodeJ_fields]

end

end Sys2Proof
end

section
/-! The words under a known opcode that no row selects: which sub-decoder refuses them (30_encoding.md R89 to R95). -/

namespace Sys2Proof

/-- The (funct7, funct3) pairs that a row of R89 has. -/
def IsRegisterSelector (f7 : BitVec 7) (f3 : BitVec 3) : Prop :=
  f7 = 0#7 ∨ f7 = 0b0100000#7 ∧ (f3 = 0b000#3 ∨ f3 = 0b101#3)

theorem decodeOp20_eq_error {w : Word} (h3 : ¬(fieldFunct3 w = 0b000#3 ∨ fieldFunct3 w = 0b101#3)) :
    decodeOp20 w = .error .unknownSelector := by
  unfold decodeOp20
  split
  · next h => exact absurd (.inl h) h3
  · next h => exact absurd (.inr h) h3
  · rfl

theorem decodeOp_eq_error (m : Bool) {w : Word} (h1 : fieldFunct7 w ≠ 1#7)
    (hsel : ¬IsRegisterSelector (fieldFunct7 w) (fieldFunct3 w)) : decodeOp m w = .error .unknownSelector := by
  unfold decodeOp
  split
  · next h7 => exact absurd (.inl h7) hsel
  · next h7 => exact decodeOp20_eq_error fun h3 => hsel (.inr ⟨h7, h3⟩)
  · next h7 => exact absurd h7 h1
  · rfl

theorem decodeOp_eq_error_of_not_registered {w : Word} (h7 : fieldFunct7 w = 1#7) :
    decodeOp false w = .error .multiplyNotRegistered := by
  simp [decodeOp, h7]

theorem decodeSlli_eq_error {w : Word} (h7 : fieldFunct7 w ≠ 0#7) : decodeSlli w = .error .unknownSelector := by
  unfold decodeSlli
  split
  · next h => exact absurd h h7
  · rfl

theorem decodeSri_eq_error {w : Word} (h0 : fieldFunct7 w ≠ 0#7) (h20 : fieldFunct7 w ≠ 0b0100000#7) :
    decodeSri w = .error .unknownSelector := by
  unfold decodeSri
  split
  · next h => exact absurd h h0
  · next h => exact absurd h h20
  · rfl

theorem decodeOpImm_of_funct3_001 {w : Word} (h3 : fieldFunct3 w = 0b001#3) : decodeOpImm w = decodeSlli w := by
  simp only [decodeOpImm, h3]

theorem decodeOpImm_of_funct3_101 {w : Word} (h3 : fieldFunct3 w = 0b101#3) : decodeOpImm w = decodeSri w := by
  simp only [decodeOpImm, h3]

theorem decodeLoad_eq_error {w : Word} (h3 : fieldFunct3 w ∈ [0b011#3, 0b110#3, 0b111#3]) :
    decodeLoad w = .error .unknownSelector := by
  simp only [List.mem_cons, List.not_mem_nil, or_false] at h3
  rcases h3 with h3 | h3 | h3 <;> simp [decodeLoad, h3]

theorem decodeStore_eq_error {w : Word} (h3 : fieldFunct3 w ∈ [0b011#3, 0b100#3, 0b101#3, 0b110#3, 0b111#3]) :
    decodeStore w = .error .unknownSelector := by
  simp only [List.mem_cons, List.not_mem_nil, or_false] at h3
  rcases h3 with h3 | h3 | h3 | h3 | h3 <;> simp [decodeStore, h3]

theorem decodeBranch_eq_error {w : Word} (h3 : fieldFunct3 w ∈ [0b010#3, 0b011#3]) :
    decodeBranch w = .error .unknownSelector := by
  simp only [List.mem_cons, List.not_mem_nil, or_false] at h3
  rcases h3 with h3 | h3 <;> simp [decodeBranch, h3]

theorem decodeJalr_eq_error {w : Word} (h3 : fieldFunct3 w ≠ 0#3) : decodeJalr w = .error .unknownSelector := by
  unfold decodeJalr
  split
  · next h => exact absurd h h3
  · rfl

/-- What the register rows' mask leaves of a word (R89). -/
theorem masked_eq_encodeR_fields (w : Word) :
    w &&& 0xFE00707F#32 = encodeR (fieldFunct7 w) 0#5 0#5 (fieldFunct3 w) 0#5 (fieldOpcode w) := by
  rw [← encodeR_masked (fieldFunct7 w) (fieldRs2 w) (fieldRs1 w), encodeR_fields]

/-- The pairs of R89 are those of its ten match values. -/
theorem encodeR_mem_registerRows {f7 : BitVec 7} {f3 : BitVec 3} (h : IsRegisterSelector f7 f3) :
    encodeR f7 0#5 0#5 f3 0#5 0b0110011#7 ∈ [0x00000033#32, 0x40000033#32, 0x00001033#32, 0x00002033#32,
      0x00003033#32, 0x00004033#32, 0x00005033#32, 0x40005033#32, 0x00006033#32, 0x00007033#32] := by
  obtain rfl | ⟨rfl, rfl | rfl⟩ := h
  · revert f3
    decide
  · decide
  · decide

end Sys2Proof
end

section
/-! Settles the obligations on the rows of the opcode table (30_encoding.md R89 to R95). A row's word is the encoder's
word for the row's instruction; a word of no row is refused by the sub-decoder of its opcode. -/

namespace Sys2Proof

/-- Settles O4: a word of no row has a (funct7, funct3) pair outside R89, because the pairs of R89 give its ten match
values. -/
theorem registerRowsDecode : Obligations.RegisterRowsDecode := by
  intro m w
  refine ⟨?add, ?sub, ?sll, ?slt, ?sltu, ?xor, ?srl, ?sra, ?or, ?and, ?none⟩
  case add | sub | sll | slt | sltu | xor | srl | sra | or | and =>
    exact fun h => decode_eq_some_of_encode_eq (encodeR_eq_of_masked h) rfl nofun
  case none =>
    intro ho h1 hrows
    have hmask : w &&& 0xFE00707F#32 = encodeR (fieldFunct7 w) 0#5 0#5 (fieldFunct3 w) 0#5 0b0110011#7 :=
      (masked_eq_encodeR_fields w).trans (congrArg _ ho)
    have hsel : ¬IsRegisterSelector (fieldFunct7 w) (fieldFunct3 w) := fun h =>
      hrows _ (encodeR_mem_registerRows h) hmask
    rw [decode_of_opcode_op m ho, decodeOp_eq_error m h1 hsel]
    rfl

/-- Settles O5: the round trip asks for the multiply decoder, and without it `decodeOp` refuses funct7 1. -/
theorem multiplyRowsDecodeOnlyWhenRegistered : Obligations.MultiplyRowsDecodeOnlyWhenRegistered := by
  intro w
  refine ⟨?mul, ?mulh, ?mulhsu, ?mulhu, ?div, ?divu, ?rem, ?remu, ?unregistered⟩
  case mul | mulh | mulhsu | mulhu | div | divu | rem | remu =>
    exact fun h => decode_eq_some_of_encode_eq (encodeR_eq_of_masked h) rfl fun _ => rfl
  case unregistered =>
    intro ho h7
    rw [decode_of_opcode_op false ho, decodeOp_eq_error_of_not_registered h7]
    rfl

/-- Settles O6: the shift words have the R layout of R82, the other six rows the I layout. -/
theorem immediateRowsDecode : Obligations.ImmediateRowsDecode := by
  intro m w
  refine ⟨?addi, ?slli, ?slti, ?sltiu, ?xori, ?srli, ?srai, ?ori, ?andi, ?leftNone, ?rightNone⟩
  case slli | srli | srai => exact fun h => decode_eq_some_of_encode_eq (encodeShift_eq_of_masked h) rfl nofun
  case addi | slti | sltiu | xori | ori | andi =>
    exact fun h => decode_eq_some_of_encode_eq (encodeI_eq_of_masked h) rfl nofun
  case leftNone =>
    intro ho h3 h7
    rw [decode_of_opcode_opImm m ho, decodeOpImm_of_funct3_001 h3, decodeSlli_eq_error h7]
    rfl
  case rightNone =>
    intro ho h3 h0 h20
    rw [decode_of_opcode_opImm m ho, decodeOpImm_of_funct3_101 h3, decodeSri_eq_error h0 h20]
    rfl

/-- Settles O7: loads have the I layout, stores the S layout. -/
theorem loadAndStoreRowsDecode : Obligations.LoadAndStoreRowsDecode := by
  intro m w
  refine ⟨?lb, ?lh, ?lw, ?lbu, ?lhu, ?sb, ?sh, ?sw, ?loadNone, ?storeNone⟩
  case lb | lh | lw | lbu | lhu => exact fun h => decode_eq_some_of_encode_eq (encodeI_eq_of_masked h) rfl nofun
  case sb | sh | sw => exact fun h => decode_eq_some_of_encode_eq (encodeS_eq_of_masked h) rfl nofun
  case loadNone =>
    intro ho h3
    rw [decode_of_opcode_load m ho, decodeLoad_eq_error h3]
    rfl
  case storeNone =>
    intro ho h3
    rw [decode_of_opcode_store m ho, decodeStore_eq_error h3]
    rfl

/-- Settles O8: the offset that the decoder reads has bit 0 equal to 0, so the round trip applies. -/
theorem branchRowsDecode : Obligations.BranchRowsDecode := by
  intro m w
  refine ⟨?beq, ?bne, ?blt, ?bge, ?bltu, ?bgeu, ?none⟩
  case beq | bne | blt | bge | bltu | bgeu =>
    exact fun h => decode_eq_some_of_encode_eq (encodeB_eq_of_masked h) (by simp [Instr.wf]) nofun
  case none =>
    intro ho h3
    rw [decode_of_opcode_branch m ho, decodeBranch_eq_error h3]
    rfl

/-- Settles O9: U, J and I layouts; JAL's offset has bit 0 equal to 0. -/
theorem upperAndJumpRowsDecode : Obligations.UpperAndJumpRowsDecode := by
  intro m w
  refine ⟨?lui, ?auipc, ?jal, ?jalr, ?none⟩
  case lui | auipc => exact fun h => decode_eq_some_of_encode_eq (encodeU_eq_of_masked h) rfl nofun
  case jal => exact fun h => decode_eq_some_of_encode_eq (encodeJ_eq_of_masked h) (by simp [Instr.wf]) nofun
  case jalr => exact fun h => decode_eq_some_of_encode_eq (encodeI_eq_of_masked h) rfl nofun
  case none =>
    intro ho h3
    rw [decode_of_opcode_jalr m ho, decodeJalr_eq_error h3]
    rfl

end Sys2Proof
end

section
/-! Settles the obligation on the immediates (30_encoding.md R83 to R87): the document's extract_bits, concat_bits and
sign_extend as facts on the numbers of bit vectors. -/

namespace Sys2Proof

/-- A field of a word is what `extract_bits` answers (R10). -/
theorem toNat_extractLsb'_eq_extractBits (w : Word) (lo n : Nat) :
    (w.extractLsb' lo n).toNat = extractBits w.toNat lo (lo + n) := by
  rw [BitVec.extractLsb'_toNat, extractBits, Nat.add_sub_cancel_left, Nat.one_shiftLeft,
    Nat.and_two_pow_sub_one_eq_mod]

/-- `sext_N` of an `n`-bit value is its sign extension (R12). -/
theorem sextBits_toNat {n : Nat} (v : BitVec n) (hn : n ≤ 32) : sextBits n v.toNat = Machine.sextImm v := by
  have hpow : 2 ^ n ≤ 2 ^ 32 := Nat.pow_le_pow_right (by decide) hn
  have hlt : v.toNat < 2 ^ n := v.isLt
  apply BitVec.eq_of_toNat_eq
  rw [sextBits, BitVec.testBit_toNat, ← BitVec.msb_eq_getLsbD_last, Nat.mod_eq_of_lt hlt, Machine.sextImm,
    BitVec.toNat_signExtend, BitVec.toNat_setWidth]
  cases v.msb
  case false => simp
  case true =>
    simp only [↓reduceIte, BitVec.toNat_ofNat]
    omega

theorem toNat_fieldImmS (w : Word) : (fieldImmS w).toNat = concatBits w.toNat [(25, 32), (7, 12)] := by
  change BitVec.toNat (w := 7 + 5) (w.extractLsb' 25 7 ++ w.extractLsb' 7 5) = _
  simp only [BitVec.toNat_append, toNat_extractLsb'_eq_extractBits]
  simp [concatBits]

theorem toNat_fieldImmB (w : Word) :
    (fieldImmB w).toNat = concatBits w.toNat [(31, 32), (7, 8), (25, 31), (8, 12)] * 2 := by
  change BitVec.toNat (w := 1 + 1 + 6 + 4 + 1)
    (w.extractLsb' 31 1 ++ w.extractLsb' 7 1 ++ w.extractLsb' 25 6 ++ w.extractLsb' 8 4 ++ 0#1) = _
  simp only [BitVec.toNat_append, toNat_extractLsb'_eq_extractBits]
  simp [concatBits, Nat.shiftLeft_eq]

theorem toNat_fieldImmJ (w : Word) :
    (fieldImmJ w).toNat = concatBits w.toNat [(31, 32), (12, 20), (20, 21), (21, 31)] * 2 := by
  change BitVec.toNat (w := 1 + 8 + 1 + 10 + 1)
    (w.extractLsb' 31 1 ++ w.extractLsb' 12 8 ++ w.extractLsb' 20 1 ++ w.extractLsb' 21 10 ++ 0#1) = _
  simp only [BitVec.toNat_append, toNat_extractLsb'_eq_extractBits]
  simp [concatBits, Nat.shiftLeft_eq]

/-- The U immediate is the word with its low 12 bits cleared (R86). -/
theorem upperImm_fieldImmU (w : Word) : Machine.upperImm (fieldImmU w) = w &&& 0xFFFFF000#32 := by
  apply BitVec.eq_of_getLsbD_eq
  intro i hi
  rw [Machine.upperImm, BitVec.getLsbD_append, BitVec.getLsbD_and, fieldImmU, BitVec.getLsbD_extractLsb']
  interval_cases i <;> simp

/-- Settles O12: each immediate's bits are the document's concatenation as a number, and `sext_N` of that number is the
sign extension that the execute phase uses. -/
theorem immediatesFollowTheFormatTable : Obligations.ImmediatesFollowTheFormatTable := by
  intro w
  refine ⟨?i, ?s, ?b, upperImm_fieldImmU w, ?j, toNat_extractLsb'_eq_extractBits w 20 5⟩
  case i =>
    have himm : (fieldImmI w).toNat = extractBits w.toNat 20 32 := toNat_extractLsb'_eq_extractBits w 20 12
    rw [← himm, sextBits_toNat _ (by decide)]
  case s => rw [← toNat_fieldImmS, sextBits_toNat _ (by decide)]
  case b => rw [← toNat_fieldImmB, sextBits_toNat _ (by decide)]
  case j => rw [← toNat_fieldImmJ, sextBits_toNat _ (by decide)]

end Sys2Proof
end

section
/-! The shared operations that the register-register and register-immediate families compute with, each as the exact
integer arithmetic of the document (41_integer_register.md R131 to R140, 43_integer_immediate.md R175 to R179), and the
completion of an instruction whose arm is the template `regResult`. -/

namespace Sys2Proof.Machine

/-- An instruction whose arm writes `v` to `rd` (R130, R170) completes with the effect `WritesReg`, for any way `v'` to
say that value. -/
theorem completes_of_exec_eq_regResult {i : Instr} {s : State} {rd : Reg} {v v' : Word}
    (hexec : exec i s = regResult rd v s) (hv : v = v') : Completes i s (WritesReg rd v' s) :=
  ⟨s.writeReg rd v, hexec, hv ▸ writesReg_writeReg s rd v⟩

/-! Sums and differences. -/

/-- The difference of words is the integer difference modulo 2^32 (R132). -/
theorem sub_eq_ofInt (a b : Word) : a - b = BitVec.ofInt 32 (a.toNat - b.toNat : Int) := by
  apply BitVec.eq_of_toNat_eq
  rw [BitVec.toNat_sub, BitVec.toNat_ofInt]
  omega

/-! Shifts, by any amount. -/

/-- The low five bits of a word are its value modulo 32 (R136). -/
theorem shiftAmount_eq_mod (v : Word) : shiftAmount v = v.toNat % 32 := by
  rw [shiftAmount, BitVec.extractLsb'_toNat, Nat.shiftRight_zero]

theorem shiftLeft_eq_ofNat (a : Word) (n : Nat) : shiftLeft a n = BitVec.ofNat 32 (a.toNat * 2 ^ n) := by
  rw [← Nat.shiftLeft_eq]
  rfl

theorem shiftRightLogical_eq_ofNat (a : Word) (n : Nat) :
    shiftRightLogical a n = BitVec.ofNat 32 (a.toNat / 2 ^ n) := by
  rw [← Nat.shiftRight_eq_div_pow, ← BitVec.toNat_ushiftRight, BitVec.ofNat_toNat, BitVec.setWidth_eq]
  rfl

theorem shiftRightArith_eq_ofInt (a : Word) (n : Nat) :
    shiftRightArith a n = BitVec.ofInt 32 (a.toInt / 2 ^ n) := by
  have hfloor : a.toInt >>> n = a.toInt / 2 ^ n := by
    rw [Int.shiftRight_eq_div_pow, Nat.cast_pow, Nat.cast_ofNat]
  rw [← hfloor]
  rfl

/-! Comparisons, and the immediate as an operand of one. -/

theorem boolWord_decide (p : Prop) [Decidable p] : boolWord (decide p) = if p then 1#32 else 0#32 := by
  by_cases hp : p <;> simp [boolWord, hp]

/-- A comparison as signed writes 1 or 0 (R139). -/
theorem boolWord_lessSigned (a b : Word) : boolWord (lessSigned a b) = if a.toInt < b.toInt then 1#32 else 0#32 :=
  boolWord_decide _

/-- A comparison as unsigned writes 1 or 0 (R140). -/
theorem boolWord_lessUnsigned (a b : Word) :
    boolWord (lessUnsigned a b) = if a.toNat < b.toNat then 1#32 else 0#32 := boolWord_decide _

/-- Sign extension keeps the signed value of an immediate (R178). -/
theorem toInt_sextImm {n : Nat} (imm : BitVec n) (hn : n ≤ 32) : (sextImm imm).toInt = imm.toInt :=
  BitVec.toInt_signExtend_of_le hn

/-- A sign-extended immediate read as unsigned is its signed value modulo 2^32 (R179). -/
theorem toNat_sextImm {n : Nat} (imm : BitVec n) : ((sextImm imm).toNat : Int) = imm.toInt % 2 ^ 32 := by
  have hofInt : sextImm imm = BitVec.ofInt 32 imm.toInt := rfl
  rw [hofInt, BitVec.toNat_ofInt]
  omega

end Sys2Proof.Machine
end

section
/-! Settles the obligations on the register-register instructions and the compares (41_integer_register.md R131 to R140,
43_integer_immediate.md R178, R179): every arm is `regResult` of a value that the rules above give. -/

namespace Sys2Proof.Machine

/-- Settles O16: a shift's amount is `rs2` modulo 32, and a shift by `n` multiplies by `2 ^ n` or takes the floor of the
division by it. -/
theorem registerShiftsUseTheLowFiveBits : Obligations.RegisterShiftsUseTheLowFiveBits := by
  intro s rd rs1 rs2
  rw [← shiftAmount_eq_mod]
  refine ⟨?sll, ?srl, ?sra⟩
  case sll => exact completes_of_exec_eq_regResult rfl (shiftLeft_eq_ofNat ..)
  case srl => exact completes_of_exec_eq_regResult rfl (shiftRightLogical_eq_ofNat ..)
  case sra => exact completes_of_exec_eq_regResult rfl (shiftRightArith_eq_ofInt ..)

/-- Settles O22: the compares with an immediate are the compares of two registers with the sign-extended immediate as
the second operand. -/
theorem comparesWriteZeroOrOne : Obligations.ComparesWriteZeroOrOne := by
  intro s rd rs1 rs2 imm
  refine ⟨?slt, ?sltu, ?slti, ?sltiu⟩
  case slt => exact completes_of_exec_eq_regResult rfl (boolWord_lessSigned ..)
  case sltu => exact completes_of_exec_eq_regResult rfl (boolWord_lessUnsigned ..)
  case slti =>
    rw [← toInt_sextImm imm (by decide)]
    exact completes_of_exec_eq_regResult rfl (boolWord_lessSigned ..)
  case sltiu =>
    simp only [← toNat_sextImm imm, Int.ofNat_lt]
    exact completes_of_exec_eq_regResult rfl (boolWord_lessUnsigned ..)

/-- Settles O14: the sum of words is the sum of their numbers modulo 2^32, their difference the integer difference. -/
theorem addAndSubWrapModulo : Obligations.AddAndSubWrapModulo := by
  intro s rd rs1 rs2
  refine ⟨?add, ?sub⟩
  case add => exact completes_of_exec_eq_regResult rfl (BitVec.add_def ..)
  case sub => exact completes_of_exec_eq_regResult rfl (sub_eq_ofInt ..)

/-- Settles O15: each result is the word operation, whose bits are the bitwise operation on the operands' bits. -/
theorem logicalOperationsAreBitwise : Obligations.LogicalOperationsAreBitwise := by
  intro s rd rs1 rs2
  refine ⟨⟨_, fun _ => BitVec.getLsbD_xor, ?xor⟩, ⟨_, fun _ => BitVec.getLsbD_or, ?or⟩,
    ⟨_, fun _ => BitVec.getLsbD_and, ?and⟩⟩
  case xor | or | and => exact completes_of_exec_eq_regResult rfl rfl

end Sys2Proof.Machine
end

section
/-! The exact arithmetic of the multiply and divide instructions (42_multiply_divide.md R151 to R158). -/

namespace Sys2Proof.Machine

/-! Multiplication. -/

/-- The floor of a product by 2^32, narrowed, is its bits 63:32 in two's complement (R152, R153). -/
theorem highHalf_eq_extractLsb' (p : Int) : highHalf p = (BitVec.ofInt 64 p).extractLsb' 32 32 := by
  apply BitVec.eq_of_toNat_eq
  rw [highHalf, BitVec.toNat_ofInt, BitVec.extractLsb'_toNat, BitVec.toNat_ofInt, Nat.shiftRight_eq_div_pow]
  omega

/-- Of a product of unsigned operands, the high half is a quotient of natural numbers (R154). -/
theorem mulHighUnsigned_eq_ofNat (a b : Word) :
    mulHighUnsigned a b = BitVec.ofNat 32 (a.toNat * b.toNat / 2 ^ 32) := by
  rw [mulHighUnsigned, highHalf, ← BitVec.ofInt_natCast]
  push_cast
  rfl

/-! Signed division. -/

/-- The remainder with the sign of the dividend is the document's `a - b * trunc(a / b)` (R157). -/
theorem remSigned_eq_tmod (a b : Word) :
    remSigned a b = if b.toInt = 0 then a
      else if a.toInt = -2 ^ 31 ∧ b.toInt = -1 then 0#32
      else BitVec.ofInt 32 (a.toInt.tmod b.toInt) := by
  rw [Int.tmod_def]
  rfl

/-- For a divisor not 0 the quotient is narrowed from the truncated one: at the overflow that is 2^31 modulo 2^32, the
fixed result of R155. -/
theorem divSigned_eq_ofInt_tdiv {a b : Word} (hb : b.toInt ≠ 0) :
    divSigned a b = BitVec.ofInt 32 (a.toInt.tdiv b.toInt) := by
  rw [divSigned, if_neg hb, ite_eq_right_iff]
  rintro ⟨ha, hb⟩
  rw [ha, hb]
  rfl

/-- For a divisor not 0 the remainder is that of the truncated quotient: at the overflow that is 0, the fixed result of
R157. -/
theorem remSigned_eq_ofInt_tmod {a b : Word} (hb : b.toInt ≠ 0) :
    remSigned a b = BitVec.ofInt 32 (a.toInt.tmod b.toInt) := by
  rw [remSigned_eq_tmod, if_neg hb, ite_eq_right_iff]
  rintro ⟨ha, hb⟩
  rw [ha, hb]
  rfl

/-- Quotient times divisor plus remainder is the dividend (R157), the overflow included. -/
theorem divSigned_mul_add_remSigned {a b : Word} (hb : b.toInt ≠ 0) : divSigned a b * b + remSigned a b = a :=
  calc divSigned a b * b + remSigned a b
    _ = BitVec.ofInt 32 (a.toInt.tdiv b.toInt) * BitVec.ofInt 32 b.toInt + BitVec.ofInt 32 (a.toInt.tmod b.toInt) := by
      rw [divSigned_eq_ofInt_tdiv hb, remSigned_eq_ofInt_tmod hb, BitVec.ofInt_toInt]
    _ = BitVec.ofInt 32 (a.toInt.tdiv b.toInt * b.toInt + a.toInt.tmod b.toInt) := by
      rw [BitVec.ofInt_add, BitVec.ofInt_mul]
    _ = a := by rw [Int.tdiv_mul_add_tmod, BitVec.ofInt_toInt]

/-! Unsigned division: the model compares the divisor with 0 as a number, the statement as a word. -/

/-- The quotient of R156. -/
theorem divUnsigned_eq_ite (a b : Word) :
    divUnsigned a b = if b = 0#32 then 0xFFFFFFFF#32 else BitVec.ofNat 32 (a.toNat / b.toNat) :=
  if_congr (BitVec.toNat_inj (y := 0#32)) rfl rfl

/-- The remainder of R158. -/
theorem remUnsigned_eq_ite (a b : Word) :
    remUnsigned a b = if b = 0#32 then a else BitVec.ofNat 32 (a.toNat % b.toNat) :=
  if_congr (BitVec.toNat_inj (y := 0#32)) rfl rfl

end Sys2Proof.Machine
end

section
/-! Settles the obligations on the multiply and divide instructions (42_multiply_divide.md R151 to R158): every arm is
`regResult` of a value that the rules above give. -/

namespace Sys2Proof.Machine

/-- Settles O17: the low half is the product of words, the high halves are bits 63:32 of the exact product. -/
theorem multipliesKeepTheLowOrHighHalf : Obligations.MultipliesKeepTheLowOrHighHalf := by
  intro s rd rs1 rs2
  refine ⟨?mul, ?mulh, ?mulhsu, ?mulhu⟩
  case mul => exact completes_of_exec_eq_regResult rfl (BitVec.mul_def ..)
  case mulh | mulhsu => exact completes_of_exec_eq_regResult rfl (highHalf_eq_extractLsb' _)
  case mulhu => exact completes_of_exec_eq_regResult rfl (mulHighUnsigned_eq_ofNat ..)

/-- Settles O18: the arms write `divSigned` and `remSigned`, and truncated division gives the law that binds quotient
and remainder. -/
theorem signedDivisionNeverFaults : Obligations.SignedDivisionNeverFaults := by
  intro s rd rs1 rs2
  refine ⟨?div, ?rem, divSigned_mul_add_remSigned⟩
  case div => exact completes_of_exec_eq_regResult rfl rfl
  case rem => exact completes_of_exec_eq_regResult rfl (remSigned_eq_tmod ..)

/-- Settles O19: the two arms write `divUnsigned` and `remUnsigned`. -/
theorem unsignedDivisionNeverFaults : Obligations.UnsignedDivisionNeverFaults := by
  intro s rd rs1 rs2
  refine ⟨?divu, ?remu⟩
  case divu => exact completes_of_exec_eq_regResult rfl (divUnsigned_eq_ite ..)
  case remu => exact completes_of_exec_eq_regResult rfl (remUnsigned_eq_ite ..)

end Sys2Proof.Machine
end

section
/-! Settles the obligations on the shifts by a constant and on the sums and bitwise operations with an immediate
(43_integer_immediate.md R171 to R177). -/

namespace Sys2Proof.Machine

/-- The operand of an I-type instruction is the immediate's signed value modulo 2^32 (R170). -/
theorem sextImm_eq_ofInt {n : Nat} (imm : BitVec n) : sextImm imm = BitVec.ofInt 32 imm.toInt := rfl

/-- A word plus a sign-extended immediate is the integer sum modulo 2^32 (R171). -/
theorem add_sextImm_eq_ofInt {n : Nat} (a : Word) (imm : BitVec n) :
    a + sextImm imm = BitVec.ofInt 32 (a.toNat + imm.toInt : Int) := by
  rw [BitVec.ofInt_add, BitVec.ofInt_natCast, BitVec.ofNat_toNat, BitVec.setWidth_eq, sextImm_eq_ofInt]

/-- Settles O21: the arms apply the shifts of the register instructions to the number `shamt`. -/
theorem immediateShiftsUseTheShiftAmount : Obligations.ImmediateShiftsUseTheShiftAmount := by
  intro s rd rs1 shamt
  refine ⟨?slli, ?srli, ?srai⟩
  case slli => exact completes_of_exec_eq_regResult rfl (shiftLeft_eq_ofNat ..)
  case srli => exact completes_of_exec_eq_regResult rfl (shiftRightLogical_eq_ofNat ..)
  case srai => exact completes_of_exec_eq_regResult rfl (shiftRightArith_eq_ofInt ..)

/-- Settles O20: sign extension keeps the immediate's signed value, and a sum of words is the sum of their numbers
modulo 2^32. -/
theorem immediateAddAndLogicSignExtend : Obligations.ImmediateAddAndLogicSignExtend := by
  intro s rd rs1 imm
  rw [← sextImm_eq_ofInt]
  refine ⟨?addi, ?xori, ?ori, ?andi⟩
  case addi => exact completes_of_exec_eq_regResult rfl (add_sextImm_eq_ofInt ..)
  case xori | ori | andi => exact completes_of_exec_eq_regResult rfl rfl

end Sys2Proof.Machine
end

section
/-! Settles the obligations on the signed loads, LW and the stores (44_loads_stores.md R192 to R194, R198 to R200): an
admitted access makes the load and store templates complete, and what a load extends is the bytes at its address. -/

namespace Sys2Proof.Machine

/-! The templates on admitted bytes. -/

/-- A load on admitted bytes completes (R190): it writes the extension of the little-endian value it read. -/
theorem loadInto_admitted (rd : Reg) {ea : Word} {n : Nat} (extend : Word → Word) {s : State}
    (h : s.cfg.admits ea.toNat n) :
    loadInto rd ea n extend s =
      .next (s.writeReg rd (extend (BitVec.ofNat 32 (Memory.loadLE s.mem ea.toNat n)))) := by
  simp only [loadInto, State.memRead_admitted s ea n h]

/-- An instruction whose arm is a load of admitted bytes completes with the effect `WritesReg`, for any way `v` to say
the extended value. -/
theorem completes_of_exec_eq_loadInto {i : Instr} {s : State} {rd : Reg} {ea v : Word} {n : Nat}
    {extend : Word → Word} (hexec : exec i s = loadInto rd ea n extend s) (h : s.cfg.admits ea.toNat n)
    (hv : extend (BitVec.ofNat 32 (Memory.loadLE s.mem ea.toNat n)) = v) : Completes i s (WritesReg rd v s) :=
  ⟨_, hexec.trans (loadInto_admitted rd extend h), hv ▸ writesReg_writeReg s rd _⟩

/-- A store on admitted bytes completes in the state that MemWrite answers (R190). -/
theorem storeTo_admitted {ea : Word} {n : Nat} (v : Word) {s : State} (h : s.cfg.admits ea.toNat n) :
    ∃ t, s.memWrite ea n v = some t ∧ storeTo ea n v s = .next t := by
  refine ⟨_, State.memWrite_admitted s v ea n h, ?_⟩
  simp only [storeTo, State.memWrite_admitted s v ea n h]

/-- An instruction whose arm is a store of admitted bytes completes with the effect `StoresAt`. -/
theorem completes_of_exec_eq_storeTo {i : Instr} {s : State} {ea v : Word} {n : Nat}
    (hexec : exec i s = storeTo ea n v s) (h : s.cfg.admits ea.toNat n) :
    Completes i s (StoresAt ea.toNat n v s) := by
  obtain ⟨t, hwrite, hstore⟩ := storeTo_admitted v h
  exact ⟨t, hexec.trans hstore, storesAt_memWrite s t v ea n hwrite⟩

/-! What a load of one or two bytes holds in the bits that its extension keeps. -/

/-- The low 8 bits of a one-byte load are the byte (R55, R192). -/
theorem State.extractLsb'_loadLE_one (s : State) (b : Nat) :
    (BitVec.ofNat 32 (Memory.loadLE s.mem b 1)).extractLsb' 0 8 = s.byteAt b := by
  apply BitVec.eq_of_toNat_eq
  have hbyte := (Memory.byte s.mem b).isLt
  simp only [BitVec.extractLsb'_toNat, BitVec.toNat_ofNat, Memory.loadLE, State.byteAt, Nat.shiftRight_zero]
  omega

/-- The halfword as a number: the byte at the higher address has the higher weight (R55). -/
theorem State.halfAt_toNat (s : State) (b : Nat) :
    (s.halfAt b).toNat = (s.byteAt b).toNat + 2 ^ 8 * (s.byteAt (b + 1)).toNat := by
  rw [State.halfAt, BitVec.toNat_append, ← Nat.shiftLeft_add_eq_or_of_lt (s.byteAt b).isLt, Nat.shiftLeft_eq]
  omega

/-- The low 16 bits of a two-byte load are the halfword (R55, R193). -/
theorem State.extractLsb'_loadLE_two (s : State) (b : Nat) :
    (BitVec.ofNat 32 (Memory.loadLE s.mem b 2)).extractLsb' 0 16 = s.halfAt b := by
  apply BitVec.eq_of_toNat_eq
  have hlow := (Memory.byte s.mem b).isLt
  have hhigh := (Memory.byte s.mem (b + 1)).isLt
  simp only [State.halfAt_toNat, BitVec.extractLsb'_toNat, BitVec.toNat_ofNat, Memory.loadLE, State.byteAt,
    Nat.shiftRight_zero]
  omega

/-- Settles O26: each arm is the store template, whose MemWrite stores the bytes and ends a covered reservation. -/
theorem storesWriteExactlyTheirBytes : Obligations.StoresWriteExactlyTheirBytes := by
  intro s rs1 rs2 imm
  refine ⟨?sb, ?sh, ?sw⟩
  case sb | sh | sw => exact completes_of_exec_eq_storeTo rfl

/-- Settles O23: the address is a sum with a sign-extended immediate, and each arm is the load template on the byte,
the halfword or the word that the load reads there. -/
theorem signedLoadsAndLoadWord : Obligations.SignedLoadsAndLoadWord := by
  intro s rd rs1 imm
  refine ⟨add_sextImm_eq_ofInt .., ?lb, ?lh, ?lw⟩
  case lb =>
    exact fun h => completes_of_exec_eq_loadInto rfl h (congrArg (·.signExtend 32) (s.extractLsb'_loadLE_one _))
  case lh =>
    exact fun h => completes_of_exec_eq_loadInto rfl h (congrArg (·.signExtend 32) (s.extractLsb'_loadLE_two _))
  case lw => exact fun h => completes_of_exec_eq_loadInto rfl h (s.loadLE_four _)

end Sys2Proof.Machine
end

section
/-! What the branches, the upper immediates and the jumps compute with (45_control_transfer.md R210 to R221), and the
completion of an instruction whose arm is the template `branchIf` or writes a register and pc. -/

namespace Sys2Proof.Machine

/-! The targets and the upper immediate, as the arithmetic of the document. -/

/-- A relative target is the integer sum of `ipc` and the immediate modulo 2^32 (R210). -/
theorem relativeTarget_eq_ofInt {n : Nat} (s : State) (imm : BitVec n) :
    relativeTarget s imm = BitVec.ofInt 32 ((s.ctx.pc - 4#32).toNat + imm.toInt : Int) :=
  add_sextImm_eq_ofInt ..

/-- `imm_U` is the multiple of 4096 that the 20 immediate bits count (R86). -/
theorem upperImm_eq_ofNat (imm : BitVec 20) : upperImm imm = BitVec.ofNat 32 (imm.toNat * 4096) := by
  apply BitVec.eq_of_toNat_eq
  have hlt := imm.isLt
  rw [upperImm, BitVec.toNat_append, BitVec.toNat_ofNat, BitVec.toNat_ofNat, Nat.shiftLeft_eq]
  simp only [Nat.zero_mod, Nat.or_zero]
  omega

/-- A word plus `imm_U` is the sum of the numbers modulo 2^32 (R219). -/
theorem add_upperImm_eq_ofNat (a : Word) (imm : BitVec 20) :
    a + upperImm imm = BitVec.ofNat 32 (a.toNat + imm.toNat * 4096) := by
  rw [BitVec.ofNat_add, BitVec.ofNat_toNat, BitVec.setWidth_eq, upperImm_eq_ofNat]

/-- Clearing bit 0 of a word rounds its number down to an even one (R221). -/
theorem and_clearBitZero_eq_ofNat (a : Word) : a &&& 0xFFFFFFFE#32 = BitVec.ofNat 32 (a.toNat / 2 * 2) :=
  calc a &&& 0xFFFFFFFE#32
    _ = a &&& BitVec.allOnes 32 <<< 1 := rfl
    _ = a >>> 1 <<< 1 := BitVec.shiftLeft_ushiftRight.symm
    _ = BitVec.ofNat 32 ((a >>> 1).toNat * 2 ^ 1) := shiftLeft_eq_ofNat ..
    _ = BitVec.ofNat 32 (a.toNat / 2 * 2) := by rw [BitVec.toNat_ushiftRight, Nat.shiftRight_eq_div_pow, Nat.pow_one]

/-! The conditions. -/

theorem lessSigned_eq_true {a b : Word} : lessSigned a b = true ↔ a.toInt < b.toInt := decide_eq_true_iff

theorem lessUnsigned_eq_true {a b : Word} : lessUnsigned a b = true ↔ a.toNat < b.toNat := decide_eq_true_iff

/-- "Not less" of BGE is "at least", as signed (R215). -/
theorem not_lessSigned_eq_true {a b : Word} : (!lessSigned a b) = true ↔ b.toInt ≤ a.toInt := by
  rw [Bool.not_eq_true', ← Bool.not_eq_true, lessSigned_eq_true, Int.not_lt]

/-- "Not less" of BGEU is "at least", as unsigned (R217). -/
theorem not_lessUnsigned_eq_true {a b : Word} : (!lessUnsigned a b) = true ↔ b.toNat ≤ a.toNat := by
  rw [Bool.not_eq_true', ← Bool.not_eq_true, lessUnsigned_eq_true, Nat.not_lt]

/-! Completion. -/

/-- An instruction whose arm is a conditional branch (R211) completes with the effect `GoesTo`, for any proposition `p`
that the condition decides. -/
theorem completes_of_exec_eq_branchIf {i : Instr} {s : State} {c : Bool} {p : Prop} [Decidable p] {target : Word}
    (hexec : exec i s = branchIf c target s) (hc : c = true ↔ p) :
    Completes i s (GoesTo (if p then target else s.ctx.pc) s) := by
  rw [← if_congr hc rfl rfl]
  exact ⟨_, hexec.trans (branchIf_eq s c target), goesTo_setPc s _⟩

/-- An instruction whose arm writes `v` to `rd` and then pc (R220, R221) completes with the effect `JumpsTo`, for any
way `target'` to say the target. -/
theorem completes_of_exec_eq_jump {i : Instr} {s : State} {rd : Reg} {v target target' : Word}
    (hexec : exec i s = .next ((s.writeReg rd v).setPc target)) (ht : target = target') :
    Completes i s (JumpsTo target' rd v s) :=
  ⟨_, hexec, ht ▸ jumpsTo_writeReg_setPc s rd v target⟩

end Sys2Proof.Machine
end

section
/-! Settles the obligations on the branches, the upper immediates and the jumps (45_control_transfer.md R212 to R221):
each arm is one of the templates, with the values that the rules above give. -/

namespace Sys2Proof.Machine

/-- Settles O30: the six arms are one branch template, each with its own condition, to the same target. -/
theorem branchesGoToTheTargetOrOn : Obligations.BranchesGoToTheTargetOrOn := by
  intro s rs1 rs2 imm
  rw [← relativeTarget_eq_ofInt]
  refine ⟨?beq, ?bne, ?blt, ?bge, ?bltu, ?bgeu⟩
  case beq => exact completes_of_exec_eq_branchIf rfl beq_iff_eq
  case bne => exact completes_of_exec_eq_branchIf rfl bne_iff_ne
  case blt => exact completes_of_exec_eq_branchIf rfl lessSigned_eq_true
  case bge => exact completes_of_exec_eq_branchIf rfl not_lessSigned_eq_true
  case bltu => exact completes_of_exec_eq_branchIf rfl lessUnsigned_eq_true
  case bgeu => exact completes_of_exec_eq_branchIf rfl not_lessUnsigned_eq_true

/-- Settles O33: the arm takes its target from the state before the write to `rd`, and clearing bit 0 rounds down to an
even number. -/
theorem jalrJumpsFromTheOldRegister : Obligations.JalrJumpsFromTheOldRegister := by
  intro s rd rs1 imm
  rw [← sextImm_eq_ofInt]
  exact completes_of_exec_eq_jump rfl (and_clearBitZero_eq_ofNat _)

/-- Settles O31: both arms are `regResult`, of `imm_U` and of `ipc` plus it. -/
theorem upperImmediatesWriteTheirValue : Obligations.UpperImmediatesWriteTheirValue := by
  intro s rd imm
  refine ⟨?lui, ?auipc⟩
  case lui => exact completes_of_exec_eq_regResult rfl (upperImm_eq_ofNat imm)
  case auipc => exact completes_of_exec_eq_regResult rfl (add_upperImm_eq_ofNat ..)

/-- Settles O32: the arm writes the link to `rd` and the relative target to pc. -/
theorem jalLinksAndJumps : Obligations.JalLinksAndJumps := by
  intro s rd imm
  exact completes_of_exec_eq_jump rfl (relativeTarget_eq_ofInt s imm)

end Sys2Proof.Machine
end

section
/-! The round trip of the decoder and the encoder (30_encoding.md section 3). Where a sub-decoder answers, it answers
an instruction whose encoding is the word: the selector values that it compared and the fields that it read are all of
the word's bits. -/

namespace Sys2Proof

/-- Settles O1, by the round trip of each layout. -/
theorem decodeOfEncodeIsTheInstruction : Obligations.DecodeOfEncodeIsTheInstruction :=
  fun _ i hwf hmul => decode_encode i hwf hmul

/-- What a decoded instruction owes its word: it is well-formed, the word is its encoding, and a multiply or divide
instruction has the decoder `m` registered (R90). -/
structure IsDecodingOf (m : Bool) (w : Word) (i : Instr) : Prop where
  encode_eq : encode i = w
  wf : i.wf = true
  registered : i.isMultiply = true → m = true

/-! A word is its layout with the word's own fields, the selectors by the values compared. -/

section
variable {w : Word} {f7 : BitVec 7} {f3 : BitVec 3} {op : BitVec 7}

theorem encodeR_of_selectors (h7 : fieldFunct7 w = f7) (h3 : fieldFunct3 w = f3) (ho : fieldOpcode w = op) :
    encodeR f7 (fieldRs2 w) (fieldRs1 w) f3 (fieldRd w) op = w := by
  rw [← h7, ← h3, ← ho, encodeR_fields]

theorem encodeShift_of_selectors (h7 : fieldFunct7 w = f7) (h3 : fieldFunct3 w = f3) (ho : fieldOpcode w = op) :
    encodeShift f7 (fieldShamt w) (fieldRs1 w) f3 (fieldRd w) op = w :=
  (encodeShift_eq ..).trans (encodeR_of_selectors h7 h3 ho)

theorem encodeI_of_selectors (h3 : fieldFunct3 w = f3) (ho : fieldOpcode w = op) :
    encodeI (fieldImmI w) (fieldRs1 w) f3 (fieldRd w) op = w := by
  rw [← h3, ← ho, encodeI_fields]

/-- The I layout where the immediate is compared too (R96). -/
theorem encodeI_of_constant {imm : BitVec 12} (himm : fieldImmI w = imm) (h3 : fieldFunct3 w = f3)
    (ho : fieldOpcode w = op) : encodeI imm (fieldRs1 w) f3 (fieldRd w) op = w := by
  rw [← himm, encodeI_of_selectors h3 ho]

theorem encodeS_of_selectors (h3 : fieldFunct3 w = f3) (ho : fieldOpcode w = op) :
    encodeS (fieldImmS w) (fieldRs2 w) (fieldRs1 w) f3 op = w := by
  rw [← h3, ← ho, encodeS_fields]

theorem encodeB_of_selectors (h3 : fieldFunct3 w = f3) (ho : fieldOpcode w = op) :
    encodeB (fieldImmB w) (fieldRs2 w) (fieldRs1 w) f3 op = w := by
  rw [← h3, ← ho, encodeB_fields]

theorem encodeU_of_opcode (ho : fieldOpcode w = op) : encodeU (fieldImmU w) (fieldRd w) op = w := by
  rw [← ho, encodeU_fields]

theorem encodeJ_of_opcode (ho : fieldOpcode w = op) : encodeJ (fieldImmJ w) (fieldRd w) op = w := by
  rw [← ho, encodeJ_fields]

theorem encodeA_of_selectors {f5 : BitVec 5} (h5 : fieldFunct5 w = f5) (h3 : fieldFunct3 w = 0b010#3)
    (ho : fieldOpcode w = 0b0101111#7) :
    encodeA f5 (fieldAq w) (fieldRl w) (fieldRs2 w) (fieldRs1 w) (fieldRd w) = w := by
  rw [← h5, encodeA_fields w h3 ho]

end

/-! What each sub-decoder answers. -/

section
variable {m : Bool} {w : Word} {i : Instr}

theorem decodeOp00_inv (ho : fieldOpcode w = 0b0110011#7) (h7 : fieldFunct7 w = 0#7) (h : decodeOp00 w = .ok i) :
    IsDecodingOf m w i := by
  unfold decodeOp00 at h
  split at h <;> cases h
  all_goals exact ⟨encodeR_of_selectors h7 ‹_› ho, rfl, nofun⟩

theorem decodeOp20_inv (ho : fieldOpcode w = 0b0110011#7) (h7 : fieldFunct7 w = 0b0100000#7)
    (h : decodeOp20 w = .ok i) : IsDecodingOf m w i := by
  unfold decodeOp20 at h
  split at h <;> cases h
  all_goals exact ⟨encodeR_of_selectors h7 ‹_› ho, rfl, nofun⟩

theorem decodeMultiply_inv (hm : m = true) (ho : fieldOpcode w = 0b0110011#7) (h7 : fieldFunct7 w = 1#7)
    (h : decodeMultiply w = .ok i) : IsDecodingOf m w i := by
  unfold decodeMultiply at h
  split at h <;> cases h
  all_goals exact ⟨encodeR_of_selectors h7 ‹_› ho, rfl, fun _ => hm⟩

theorem decodeOp_inv (ho : fieldOpcode w = 0b0110011#7) (h : decodeOp m w = .ok i) : IsDecodingOf m w i := by
  unfold decodeOp at h
  split at h
  · exact decodeOp00_inv ho ‹_› h
  · exact decodeOp20_inv ho ‹_› h
  · split at h
    · exact decodeMultiply_inv ‹_› ho ‹_› h
    · cases h
  · cases h

theorem decodeSlli_inv (ho : fieldOpcode w = 0b0010011#7) (h3 : fieldFunct3 w = 0b001#3) (h : decodeSlli w = .ok i) :
    IsDecodingOf m w i := by
  unfold decodeSlli at h
  split at h <;> cases h
  exact ⟨encodeShift_of_selectors ‹_› h3 ho, rfl, nofun⟩

theorem decodeSri_inv (ho : fieldOpcode w = 0b0010011#7) (h3 : fieldFunct3 w = 0b101#3) (h : decodeSri w = .ok i) :
    IsDecodingOf m w i := by
  unfold decodeSri at h
  split at h <;> cases h
  all_goals exact ⟨encodeShift_of_selectors ‹_› h3 ho, rfl, nofun⟩

theorem decodeOpImm_inv (ho : fieldOpcode w = 0b0010011#7) (h : decodeOpImm w = .ok i) : IsDecodingOf m w i := by
  unfold decodeOpImm at h
  split at h
  case h_2 h3 => exact decodeSlli_inv ho h3 h
  case h_6 h3 => exact decodeSri_inv ho h3 h
  case h_9 => cases h
  all_goals
    cases h
    exact ⟨encodeI_of_selectors ‹_› ho, rfl, nofun⟩

theorem decodeLoad_inv (ho : fieldOpcode w = 0b0000011#7) (h : decodeLoad w = .ok i) : IsDecodingOf m w i := by
  unfold decodeLoad at h
  split at h <;> cases h
  all_goals exact ⟨encodeI_of_selectors ‹_› ho, rfl, nofun⟩

theorem decodeStore_inv (ho : fieldOpcode w = 0b0100011#7) (h : decodeStore w = .ok i) : IsDecodingOf m w i := by
  unfold decodeStore at h
  split at h <;> cases h
  all_goals exact ⟨encodeS_of_selectors ‹_› ho, rfl, nofun⟩

theorem decodeBranch_inv (ho : fieldOpcode w = 0b1100011#7) (h : decodeBranch w = .ok i) : IsDecodingOf m w i := by
  unfold decodeBranch at h
  split at h <;> cases h
  all_goals exact ⟨encodeB_of_selectors ‹_› ho, by simp [Instr.wf], nofun⟩

theorem decodeJalr_inv (ho : fieldOpcode w = 0b1100111#7) (h : decodeJalr w = .ok i) : IsDecodingOf m w i := by
  unfold decodeJalr at h
  split at h <;> cases h
  exact ⟨encodeI_of_selectors ‹_› ho, rfl, nofun⟩

theorem decodeSystem_inv (ho : fieldOpcode w = 0b1110011#7) (h : decodeSystem w = .ok i) : IsDecodingOf m w i := by
  unfold decodeSystem at h
  split at h <;> cases h
  all_goals next h3 himm => exact ⟨encodeI_of_constant himm h3 ho, rfl, nofun⟩

theorem decodeAtomic_inv (ho : fieldOpcode w = 0b0101111#7) (h : decodeAtomic w = .ok i) : IsDecodingOf m w i := by
  unfold decodeAtomic at h
  split at h
  case h_1 h3 =>
    unfold decodeFunct5 at h
    split at h <;> cases h
    all_goals exact ⟨encodeA_of_selectors ‹_› h3 ho, rfl, nofun⟩
  case h_2 => cases h

theorem decodeWord_inv (h : decodeWord m w = .ok i) : IsDecodingOf m w i := by
  unfold decodeWord at h
  split at h
  case h_1 ho => exact decodeOp_inv ho h
  case h_2 ho => exact decodeOpImm_inv ho h
  case h_3 ho => exact decodeLoad_inv ho h
  case h_4 ho => exact decodeStore_inv ho h
  case h_5 ho => exact decodeBranch_inv ho h
  case h_6 ho => cases h; exact ⟨encodeU_of_opcode ho, rfl, nofun⟩
  case h_7 ho => cases h; exact ⟨encodeU_of_opcode ho, rfl, nofun⟩
  case h_8 ho => cases h; exact ⟨encodeJ_of_opcode ho, by simp [Instr.wf], nofun⟩
  case h_9 ho => exact decodeJalr_inv ho h
  case h_10 ho => exact decodeSystem_inv ho h
  case h_11 ho => exact decodeAtomic_inv ho h
  case h_12 => cases h

theorem decode_inv (h : decode m w = some i) : IsDecodingOf m w i := by
  unfold decode at h
  cases hw : decodeWord m w with
  | error r => rw [hw] at h; cases h
  | ok j => rw [hw] at h; cases h; exact decodeWord_inv hw

end

/-- Settles O2, by what each sub-decoder answers. -/
theorem encodeOfDecodeIsTheWord : Obligations.EncodeOfDecodeIsTheWord := by
  intro m w i h
  obtain ⟨hword, hwf, hmul⟩ := decode_inv h
  exact ⟨hword, hwf, hmul⟩

end Sys2Proof
end

section
/-! The system and atomic rows (30_encoding.md R96, R97) and the whole opcode table (R98). -/

namespace Sys2Proof

theorem decode_of_opcode_system (m : Bool) {w : Word} (ho : fieldOpcode w = 0b1110011#7) :
    decode m w = (decodeSystem w).toOption := by simp only [decode, decodeWord, ho]

theorem decode_of_opcode_atomic (m : Bool) {w : Word} (ho : fieldOpcode w = 0b0101111#7) :
    decode m w = (decodeAtomic w).toOption := by simp only [decode, decodeWord, ho]

/-! A word under a mask of these rows is the row's layout with the word's own fields. -/

/-- The mask `0xFFF0707F` compares the immediate, funct3 and the opcode (R96). -/
theorem encodeI_eq_of_masked_system {w : Word} {imm : BitVec 12} {f3 : BitVec 3} {op : BitVec 7}
    (h : w &&& 0xFFF0707F#32 = encodeI imm 0#5 f3 0#5 op) : encodeI imm (fieldRs1 w) f3 (fieldRd w) op = w := by
  have himm : fieldImmI w = imm := (extractLsb'_masked _ _ _ 20 12 h rfl).trans (fieldImmI_encodeI ..)
  have h3 : fieldFunct3 w = f3 := (extractLsb'_masked _ _ _ 12 3 h rfl).trans (fieldFunct3_encodeI ..)
  have ho : fieldOpcode w = op := (extractLsb'_masked _ _ _ 0 7 h rfl).trans (fieldOpcode_encodeI ..)
  exact encodeI_of_constant himm h3 ho

/-- The mask `0xF800707F` compares funct5, funct3 and the opcode (R97). -/
theorem encodeA_eq_of_masked {w : Word} {f5 : BitVec 5}
    (h : w &&& 0xF800707F#32 = encodeA f5 false false 0#5 0#5 0#5) :
    encodeA f5 (fieldAq w) (fieldRl w) (fieldRs2 w) (fieldRs1 w) (fieldRd w) = w := by
  have h5 : fieldFunct5 w = f5 := (extractLsb'_masked _ _ _ 27 5 h rfl).trans (fieldFunct5_encodeA ..)
  have h3 : fieldFunct3 w = 0b010#3 := (extractLsb'_masked _ _ _ 12 3 h rfl).trans (fieldFunct3_encodeA ..)
  have ho : fieldOpcode w = 0b0101111#7 := (extractLsb'_masked _ _ _ 0 7 h rfl).trans (fieldOpcode_encodeA ..)
  exact encodeA_of_selectors h5 h3 ho

/-! The words that no row selects. -/

theorem decodeSystem_eq_error {w : Word}
    (h : fieldFunct3 w ≠ 0#3 ∨ fieldImmI w ≠ 0#12 ∧ fieldImmI w ≠ 1#12) :
    decodeSystem w = .error .unknownSelector := by
  unfold decodeSystem
  split
  · next h3 himm => exact absurd h (by simp [h3, himm])
  · next h3 himm => exact absurd h (by simp [h3, himm])
  · rfl

theorem decodeFunct5_eq_error {w : Word} (h5 : fieldFunct5 w ∉ [0b00000#5, 0b00001#5, 0b00010#5, 0b00011#5,
    0b00100#5, 0b01000#5, 0b01100#5, 0b10000#5, 0b10100#5]) : decodeFunct5 w = .error .unknownSelector := by
  unfold decodeFunct5
  split
  case h_10 => rfl
  all_goals next h => exact absurd h5 (by simp [h])

theorem decodeAtomic_eq_error {w : Word} (h : fieldFunct3 w ≠ 0b010#3 ∨ fieldFunct5 w ∉ [0b00000#5, 0b00001#5,
    0b00010#5, 0b00011#5, 0b00100#5, 0b01000#5, 0b01100#5, 0b10000#5, 0b10100#5]) :
    decodeAtomic w = .error .unknownSelector := by
  unfold decodeAtomic
  split
  · next h3 =>
    rw [decodeFunct5_eq_error (h.resolve_left (not_not_intro h3))]
    rfl
  · rfl

theorem decodeWord_eq_error_of_opcode (m : Bool) {w : Word} (h : fieldOpcode w ∉ [0b0110011#7, 0b0010011#7,
    0b0000011#7, 0b0100011#7, 0b1100011#7, 0b0110111#7, 0b0010111#7, 0b1101111#7, 0b1100111#7, 0b1110011#7,
    0b0101111#7]) : decodeWord m w = .error .unknownOpcode := by
  unfold decodeWord
  split
  case h_12 => rfl
  all_goals next ho => exact absurd h (by simp [ho])

/-- Settles O10: a row's word is the encoder's word for the row's instruction with the fields of the word. -/
theorem systemAndAtomicRowsDecode : Obligations.SystemAndAtomicRowsDecode := by
  intro m w
  refine ⟨?ecall, ?ebreak, ?amoadd, ?amoswap, ?lr, ?sc, ?amoxor, ?amoor, ?amoand, ?amomin, ?amomax, ?systemNone,
    ?atomicNone⟩
  case ecall | ebreak => exact fun h => decode_eq_some_of_encode_eq (encodeI_eq_of_masked_system h) rfl nofun
  case amoadd | amoswap | lr | sc | amoxor | amoor | amoand | amomin | amomax =>
    exact fun h => decode_eq_some_of_encode_eq (encodeA_eq_of_masked h) rfl nofun
  case systemNone =>
    intro ho h
    rw [decode_of_opcode_system m ho, decodeSystem_eq_error h]
    rfl
  case atomicNone =>
    intro ho h
    rw [decode_of_opcode_atomic m ho, decodeAtomic_eq_error h]
    rfl

/-! The table as a whole: a word selects a row exactly when the decoder answers. -/

open Laws in
/-- The encoder's word selects the instruction's row (R88), said of every instruction at once. -/
theorem row_selects_encode (i : Instr) : i.row.selects (encode i) := by
  cases i
  exacts [EncodeRow.add .., EncodeRow.sub .., EncodeRow.xor .., EncodeRow.or .., EncodeRow.and .., EncodeRow.sll ..,
    EncodeRow.srl .., EncodeRow.sra .., EncodeRow.slt .., EncodeRow.sltu .., EncodeRow.mul .., EncodeRow.mulh ..,
    EncodeRow.mulhsu .., EncodeRow.mulhu .., EncodeRow.div .., EncodeRow.divu .., EncodeRow.rem ..,
    EncodeRow.remu .., EncodeRow.addi .., EncodeRow.slti .., EncodeRow.sltiu .., EncodeRow.xori ..,
    EncodeRow.ori .., EncodeRow.andi .., EncodeRow.slli .., EncodeRow.srli .., EncodeRow.srai .., EncodeRow.lb ..,
    EncodeRow.lh .., EncodeRow.lw .., EncodeRow.lbu .., EncodeRow.lhu .., EncodeRow.sb .., EncodeRow.sh ..,
    EncodeRow.sw .., EncodeRow.beq .., EncodeRow.bne .., EncodeRow.blt .., EncodeRow.bge .., EncodeRow.bltu ..,
    EncodeRow.bgeu .., EncodeRow.lui .., EncodeRow.auipc .., EncodeRow.jal .., EncodeRow.jalr ..,
    EncodeRow.ecall .., EncodeRow.ebreak .., EncodeRow.lrW .., EncodeRow.scW .., EncodeRow.amoswapW ..,
    EncodeRow.amoaddW .., EncodeRow.amoxorW .., EncodeRow.amoandW .., EncodeRow.amoorW .., EncodeRow.amominW ..,
    EncodeRow.amomaxW ..]

theorem row_mem_opcodeRows (i : Instr) : i.row ∈ opcodeRows := by
  cases i <;> simp [opcodeRows, rowInstrs, Instr.row]

/-- A word that does not decode selects no row: a word of a row decodes to the row's instruction (R89 to R97). -/
theorem selects_no_row_of_decode_eq_none {w : Word} (hnone : decode true w = none) :
    ∀ r ∈ opcodeRows, w &&& r.mask ≠ r.bits := by
  have hregister := registerRowsDecode true w
  have hmultiply := multiplyRowsDecodeOnlyWhenRegistered w
  have himmediate := immediateRowsDecode true w
  have hmemory := loadAndStoreRowsDecode true w
  have hbranch := branchRowsDecode true w
  have hupper := upperAndJumpRowsDecode true w
  have hsystem := systemAndAtomicRowsDecode true w
  simp only [hnone, reduceCtorEq, imp_false] at hregister hmultiply himmediate hmemory hbranch hupper hsystem
  simp [opcodeRows, rowInstrs, Instr.row, hregister, hmultiply, himmediate, hmemory, hbranch, hupper, hsystem]

/-- R98: a word decodes to none exactly when it selects no row. -/
theorem decode_eq_none_iff (w : Word) : decode true w = none ↔ ∀ r ∈ opcodeRows, w &&& r.mask ≠ r.bits := by
  constructor
  · exact selects_no_row_of_decode_eq_none
  · intro hrows
    by_contra hsome
    obtain ⟨i, hi⟩ := Option.ne_none_iff_exists'.1 hsome
    have hsel : i.row.selects w := (decode_inv hi).encode_eq ▸ row_selects_encode i
    exact hrows _ (row_mem_opcodeRows i) hsel

/-- Settles O11: the rows are those of the decoder's instructions, and two of them differ in a bit that both compare. -/
theorem otherWordsDecodeToNone : Obligations.OtherWordsDecodeToNone := by
  refine ⟨decode_eq_none_iff, opcodeRows_disjoint.imp ?disjoint, opcodeRows_length, ?opcode⟩
  case disjoint =>
    rintro r q hne w ⟨hr, hq⟩
    apply hne
    rw [← hr, ← hq]
    ac_rfl
  case opcode =>
    intro m w ho
    rw [decode, decodeWord_eq_error_of_opcode m ho]
    rfl

/-- Settles O3: each word is the encoding of its instruction, and the five others are evaluated. -/
theorem wordsWrittenOutDecode : Obligations.WordsWrittenOutDecode := by
  refine ⟨?_, ?_, ?_, ?_, ?_, ?_, ?_, ?_, ?_, ?_, ?_, ?_, ?_, ?_, ?_, ?_, ?_, by decide⟩
  all_goals exact decode_eq_some_of_encode_eq (by decide) (by decide) fun _ => rfl

end Sys2Proof
end

section
/-! The phases of a step, one equation for each way it can go (40_step_cycle.md R111 to R117, R121, R128). -/

namespace Sys2Proof.Machine

/-! An event leaves no task attached (R124). -/

namespace State

variable (s : State)

@[simp] theorem notify_cpuState (e : Event) : (s.notify e).cpuState = .vacant := rfl
@[simp] theorem notify_taskId (e : Event) : (s.notify e).taskId = none := rfl

/-! The fetch. -/

theorem fetch_admitted {s : State} (h : s.cfg.admits s.ctx.pc.toNat 4) :
    s.fetch = some (s.wordAt s.ctx.pc.toNat) := State.memRead_word s s.ctx.pc h

theorem fetch_not_admitted {s : State} (h : ¬s.cfg.admits s.ctx.pc.toNat 4) : s.fetch = none :=
  State.memRead_not_admitted s s.ctx.pc 4 h

theorem admits_of_fetch_eq_some {s : State} {w : Word} (h : s.fetch = some w) : s.cfg.admits s.ctx.pc.toNat 4 :=
  (State.memRead_cases s s.ctx.pc 4 h).1

/-- The signature test compares the four bytes at pc in ascending address order (R114). -/
theorem atSignature_iff : s.atSignature = true ↔
    [s.byteAt s.ctx.pc.toNat, s.byteAt (s.ctx.pc.toNat + 1), s.byteAt (s.ctx.pc.toNat + 2),
      s.byteAt (s.ctx.pc.toNat + 3)] = s.cfg.trapSig := beq_iff_eq

theorem atSignature_eq_false_iff : s.atSignature = false ↔
    [s.byteAt s.ctx.pc.toNat, s.byteAt (s.ctx.pc.toNat + 1), s.byteAt (s.ctx.pc.toNat + 2),
      s.byteAt (s.ctx.pc.toNat + 3)] ≠ s.cfg.trapSig := by
  rw [ne_eq, ← atSignature_iff, Bool.not_eq_true]

/-- Whether a fatal error is recorded depends on the report only (R128). -/
theorem faulted_congr {s t : State} (h : t.report = s.report) : t.faulted = s.faulted := by
  rw [State.faulted, h, State.faulted]

end State

/-! The five phases. -/

section
variable {s : State}

theorem shuttle_not_admitted (h : ¬s.cfg.admits s.ctx.pc.toNat 4) :
    shuttle exec s = s.raise .memoryViolation := by
  simp only [shuttle, State.fetch_not_admitted h]

theorem shuttle_at_signature (h : s.cfg.admits s.ctx.pc.toNat 4) (hsig : s.atSignature = true) :
    shuttle exec s = .next (s.afterFetch.notify .taskFinished) := by
  simp only [shuttle, State.fetch_admitted h, hsig, ↓reduceIte]
  rfl

theorem shuttle_decodeAndRun (h : s.cfg.admits s.ctx.pc.toNat 4) (hsig : s.atSignature = false) :
    shuttle exec s = decodeAndRun exec (s.wordAt s.ctx.pc.toNat) s.afterFetch := by
  simp only [shuttle, State.fetch_admitted h, hsig, Bool.false_eq_true, ↓reduceIte]
  rfl

theorem decodeAndRun_none {w : Word} (h : decode s.cfg.mEnabled w = none) :
    decodeAndRun exec w s = s.raise .invalidInstruction := by
  simp only [decodeAndRun, h]

theorem decodeAndRun_some {w : Word} {i : Instr} (h : decode s.cfg.mEnabled w = some i) :
    decodeAndRun exec w s = exec i s := by
  simp only [decodeAndRun, h]

/-! The preconditions of a step. -/

theorem step_vacant (h : s.cpuState = .vacant) : step s = .refused .stepWhileVacant := by
  simp only [step, stepWith, h]

theorem step_faulted (hrun : s.cpuState = .running) (hfault : s.faulted = true) :
    step s = .fault .stuckAfterFatal := by
  simp only [step, stepWith, hrun, hfault, ↓reduceIte]

theorem step_unaligned (hrun : s.cpuState = .running) (hclean : s.faulted = false) (hpc : s.pcAdmitted = false) :
    step s = .refused .unalignedPc := by
  simp only [step, stepWith, hrun, hclean, hpc, Bool.false_eq_true, ↓reduceIte]

theorem step_eq_shuttle (hrun : s.cpuState = .running) (hclean : s.faulted = false) (hpc : s.pcAdmitted = true) :
    step s = shuttle exec s := by
  simp only [step, stepWith, hrun, hclean, hpc, Bool.false_eq_true, ↓reduceIte]

theorem State.faulted_of_report_eq_none (h : s.report = none) : s.faulted = false := by
  simp only [State.faulted, h]

theorem State.pcAdmitted_iff :
    s.pcAdmitted = true ↔ s.cfg.pcAlignPolicy = .unchecked ∨ s.ctx.pc.toNat % 4 = 0 := by
  simp [State.pcAdmitted]

/-- A step under its preconditions is the five phases. -/
theorem State.Ready.step_eq_shuttle (h : s.Ready) : step s = shuttle exec s :=
  Machine.step_eq_shuttle h.running (State.faulted_of_report_eq_none h.clean) (State.pcAdmitted_iff.2 h.aligned)

/-- Everything a step can do when it answers a next state, said of the state after the fetch. -/
theorem step_effect {t : State} (h : step s = .next t) :
    s.cpuState = .running ∧ s.faulted = false ∧
      (t = s.afterFetch.notify .taskFinished ∨ ∃ i, exec i s.afterFetch = .next t) := by
  obtain ⟨hrun, hclean, -, w, hw, hcases⟩ := step_cases h
  obtain rfl : s.wordAt s.ctx.pc.toNat = w :=
    Option.some.inj ((State.fetch_admitted (State.admits_of_fetch_eq_some hw)).symm.trans hw)
  refine ⟨hrun, hclean, ?_⟩
  obtain ⟨-, ht⟩ | ⟨-, i, -, hi⟩ := hcases
  · exact .inl ht
  · exact .inr ⟨i, hi⟩

end

end Sys2Proof.Machine
end

section
/-! What each kind of instruction does when it completes. `Effect` says what can happen to the state, not by which
instruction; the rules on who writes pc (10_state.md R25), memory (20_memory.md R70) and the reservation (47_atomics.md
R250) need both. -/

namespace Sys2Proof.Machine

/-! LR.W and SC.W, one equation for each way they go. -/

section
variable {s : State} (aq rl : Bool) (rd rs1 rs2 : Reg)

theorem execLrW_admitted (h : s.cfg.admits (s.readReg rs1).toNat 4) :
    execLrW aq rl rd rs1 rs2 s =
      .next ((s.setResv (some (s.readReg rs1))).writeReg rd (s.wordAt (s.readReg rs1).toNat)) := by
  simp only [execLrW, State.memRead_word s _ h]

theorem execLrW_not_admitted (h : ¬s.cfg.admits (s.readReg rs1).toNat 4) :
    execLrW aq rl rd rs1 rs2 s = s.raise .memoryViolation := by
  simp only [execLrW, State.memRead_not_admitted s _ 4 h]

theorem execScW_reserved {t : State} (hresv : s.ctx.resv = some (s.readReg rs1))
    (hwrite : s.memWrite (s.readReg rs1) 4 (s.readReg rs2) = some t) :
    execScW aq rl rd rs1 rs2 s = .next ((t.setResv none).writeReg rd 0#32) := by
  simp only [execScW, hresv, hwrite, ↓reduceIte]

theorem execScW_reserved_not_admitted (hresv : s.ctx.resv = some (s.readReg rs1))
    (h : ¬s.cfg.admits (s.readReg rs1).toNat 4) : execScW aq rl rd rs1 rs2 s = s.raise .memoryViolation := by
  simp only [execScW, hresv, State.memWrite_not_admitted s _ _ 4 h, ↓reduceIte]

theorem execScW_not_reserved (hresv : s.ctx.resv ≠ some (s.readReg rs1)) :
    execScW aq rl rd rs1 rs2 s = .next ((s.setResv none).writeReg rd 1#32) := by
  simp only [execScW, hresv, ↓reduceIte]

/-- Everything that LR.W can do (R241). -/
theorem execLrW_cases {r : Result} (h : execLrW aq rl rd rs1 rs2 s = r) :
    (∃ v, s.memRead (s.readReg rs1) 4 = some v ∧
        r = .next ((s.setResv (some (s.readReg rs1))).writeReg rd v)) ∨
      r = s.raise .memoryViolation := by
  by_cases hadmits : s.cfg.admits (s.readReg rs1).toNat 4
  · exact .inl ⟨_, State.memRead_word s _ hadmits, h.symm.trans (execLrW_admitted aq rl rd rs1 rs2 hadmits)⟩
  · exact .inr (h.symm.trans (execLrW_not_admitted aq rl rd rs1 rs2 hadmits))

/-- Everything that SC.W can do (R242). -/
theorem execScW_cases {r : Result} (h : execScW aq rl rd rs1 rs2 s = r) :
    (∃ t, s.memWrite (s.readReg rs1) 4 (s.readReg rs2) = some t ∧
        r = .next ((t.setResv none).writeReg rd 0#32)) ∨
      r = .next ((s.setResv none).writeReg rd 1#32) ∨ r = s.raise .memoryViolation := by
  by_cases hresv : s.ctx.resv = some (s.readReg rs1)
  · by_cases hadmits : s.cfg.admits (s.readReg rs1).toNat 4
    · have hwrite := State.memWrite_admitted s (s.readReg rs2) (s.readReg rs1) 4 hadmits
      exact .inl ⟨_, hwrite, h.symm.trans (execScW_reserved aq rl rd rs1 rs2 hresv hwrite)⟩
    · exact .inr (.inr (h.symm.trans (execScW_reserved_not_admitted aq rl rd rs1 rs2 hresv hadmits)))
  · exact .inr (.inl (h.symm.trans (execScW_not_reserved aq rl rd rs1 rs2 hresv)))

end

/-! The effects. -/

/-- Everything that the instruction `i` can do when it answers a next state. A branch and a store write register 0,
which is no change (R22). -/
inductive EffectOf (i : Instr) (s : State) : State → Prop
  | reg (rd : Reg) (v : Word) : EffectOf i s (s.writeReg rd v)
  | pause (c : PauseCause) : EffectOf i s (s.notify (.pauseTask c))
  | transfer (hi : transfersControl i = true) (rd : Reg) (v target : Word) :
      EffectOf i s ((s.writeReg rd v).setPc target)
  | store (hi : storesToMemory i = true) (a v : Word) (n : Nat) (rd : Reg) (old : Word) (t : State)
      (h : s.memWrite a n v = some t) : EffectOf i s (t.writeReg rd old)
  | reserve (aq rl : Bool) (rd rs1 rs2 : Reg) (hi : i = .lrW aq rl rd rs1 rs2) (v : Word)
      (h : s.memRead (s.readReg rs1) 4 = some v) :
      EffectOf i s ((s.setResv (some (s.readReg rs1))).writeReg rd v)
  | release (hi : storesToMemory i = true) (rd : Reg) (code : Word) (t : State)
      (h : t = s ∨ ∃ a v, s.memWrite a 4 v = some t) : EffectOf i s ((t.setResv none).writeReg rd code)

section
variable {i : Instr} {s t : State}

theorem regResult_effectOf {rd : Reg} {v : Word} (h : regResult rd v s = .next t) : EffectOf i s t := by
  cases h; exact .reg rd v

theorem branchIf_effectOf (hi : transfersControl i = true) {c : Bool} {a : Word} (h : branchIf c a s = .next t) :
    EffectOf i s t := by
  rw [branchIf_eq] at h; cases h; exact .transfer hi 0#5 0#32 _

theorem loadInto_effectOf {rd : Reg} {a : Word} {n : Nat} {ext : Word → Word} (h : loadInto rd a n ext s = .next t) :
    EffectOf i s t := by
  obtain ⟨w, _, e⟩ | ⟨_, e⟩ := loadInto_cases s rd a n ext h
  · cases e; exact .reg rd _
  · cases e

theorem storeTo_effectOf (hi : storesToMemory i = true) {a v : Word} {n : Nat} (h : storeTo a n v s = .next t) :
    EffectOf i s t := by
  obtain ⟨u, hu, e⟩ | ⟨_, e⟩ := storeTo_cases s v a n h
  · cases e; exact .store hi a v n 0#5 0#32 _ hu
  · cases e

theorem amoOn_effectOf (hi : storesToMemory i = true) {f : Word → Word → Word} {rd : Reg} {a v : Word}
    (h : amoOn f rd a v s = .next t) : EffectOf i s t := by
  obtain ⟨u, old, _, hu, e⟩ | ⟨_, e⟩ := amoOn_cases s rd v a f h
  · cases e; exact .store hi a _ 4 rd old _ hu
  · cases e

theorem execLrW_effectOf (aq rl : Bool) (rd rs1 rs2 : Reg) (h : execLrW aq rl rd rs1 rs2 s = .next t) :
    EffectOf (.lrW aq rl rd rs1 rs2) s t := by
  obtain ⟨v, hread, e⟩ | e := execLrW_cases aq rl rd rs1 rs2 h
  · cases e; exact .reserve aq rl rd rs1 rs2 rfl v hread
  · cases e

theorem execScW_effectOf (aq rl : Bool) (rd rs1 rs2 : Reg) (h : execScW aq rl rd rs1 rs2 s = .next t) :
    EffectOf (.scW aq rl rd rs1 rs2) s t := by
  obtain ⟨u, hwrite, e⟩ | e | e := execScW_cases aq rl rd rs1 rs2 h
  · cases e; exact .release rfl rd 0#32 u (.inr ⟨_, _, hwrite⟩)
  · cases e; exact .release rfl rd 1#32 s (.inl rfl)
  · cases e

/-- The inversion lemma of exec, with the instruction. -/
theorem exec_effectOf (h : exec i s = .next t) : EffectOf i s t := by
  cases i
  case lb | lh | lw | lbu | lhu => exact loadInto_effectOf h
  case sb | sh | sw => exact storeTo_effectOf rfl h
  case beq | bne | blt | bge | bltu | bgeu => exact branchIf_effectOf rfl h
  case jal | jalr => cases h; exact .transfer rfl _ _ _
  case ecall | ebreak => cases h; exact .pause _
  case lrW => exact execLrW_effectOf _ _ _ _ _ h
  case scW => exact execScW_effectOf _ _ _ _ _ h
  case amoswapW | amoaddW | amoxorW | amoandW | amoorW | amominW | amomaxW => exact amoOn_effectOf rfl h
  all_goals exact regResult_effectOf h

/-- A store ends reservations and makes none (R61). -/
theorem State.memWrite_resv {a v : Word} {n : Nat} {r : Word} (h : s.memWrite a n v = some t)
    (hr : t.ctx.resv = some r) : s.ctx.resv = some r :=
  (((storesAt_memWrite s t v a n h).resv r).1 hr).1

/-- A held reservation was held before, or an LR.W set it at an address whose word is in the window (R241, R250). -/
theorem EffectOf.resv (h : EffectOf i s t) {r : Word} (hr : t.ctx.resv = some r) :
    s.ctx.resv = some r ∨
      ∃ aq rl rd rs1 rs2, i = .lrW aq rl rd rs1 rs2 ∧ r = s.readReg rs1 ∧ s.cfg.admits r.toNat 4 := by
  cases h with
  | reg | transfer => left; simpa using hr
  | pause => exact .inl hr
  | store _ _ _ _ _ _ _ hu => exact .inl (State.memWrite_resv hu (by simpa using hr))
  | reserve aq rl rd rs1 rs2 hi _ hread =>
    obtain rfl : s.readReg rs1 = r := by simpa using hr
    exact .inr ⟨aq, rl, rd, rs1, rs2, hi, rfl, (State.memRead_cases s _ 4 hread).1⟩
  | release => simp at hr

/-- An instruction that neither stores nor is LR.W keeps the reservation (R250). -/
theorem EffectOf.resv_eq (h : EffectOf i s t) (hstore : storesToMemory i = false)
    (hlr : ∀ aq rl rd rs1 rs2, i ≠ .lrW aq rl rd rs1 rs2) : t.ctx.resv = s.ctx.resv := by
  cases h with
  | reg | transfer => simp
  | pause => rfl
  | store hi | release hi => simp [hi] at hstore
  | reserve aq rl rd rs1 rs2 hi => exact absurd hi (hlr aq rl rd rs1 rs2)

/-- An instruction that does not store keeps memory (R70). -/
theorem EffectOf.sameMemory (h : EffectOf i s t) (hstore : storesToMemory i = false) : SameMemory s t := by
  cases h with
  | store hi | release hi => simp [hi] at hstore
  | _ => exact fun _ => rfl

/-- An instruction that transfers no control leaves pc (R25). -/
theorem EffectOf.pc_eq (h : EffectOf i s t) (htransfer : transfersControl i = false) : t.ctx.pc = s.ctx.pc := by
  cases h with
  | transfer hi => simp [hi] at htransfer
  | store _ a v n _ _ u hu => exact (State.writeReg_pc ..).trans (storesAt_memWrite s u v a n hu).pc
  | release _ _ _ u hu =>
    obtain rfl | ⟨a, v, hu⟩ := hu
    · simp
    · exact (State.writeReg_pc ..).trans (storesAt_memWrite s u v a 4 hu).pc
  | pause => rfl
  | _ => simp

/-- SC.W leaves no reservation, whether it stores or not (R242). -/
theorem execScW_resv (aq rl : Bool) (rd rs1 rs2 : Reg) (h : execScW aq rl rd rs1 rs2 s = .next t) :
    t.ctx.resv = none := by
  obtain ⟨u, -, e⟩ | e | e := execScW_cases aq rl rd rs1 rs2 h
  · cases e; simp
  · cases e; simp
  · cases e

end

/-- Settles O41: what each kind of instruction does to the reservation. -/
theorem reservationComesFromLoadReservedOnly : Obligations.ReservationComesFromLoadReservedOnly := by
  intro i s t h
  have heffect := exec_effectOf h
  refine ⟨fun r hr => ?_, ?_, heffect.resv_eq⟩
  · refine (heffect.resv hr).imp_right ?_
    rintro ⟨aq, rl, rd, rs1, rs2, hi, hr, -⟩
    exact ⟨aq, rl, rd, rs1, rs2, hi, hr⟩
  · rintro aq rl rd rs1 rs2 rfl
    exact execScW_resv aq rl rd rs1 rs2 h

/-- Settles O42: only the effects with a MemWrite change memory. -/
theorem memoryChangesByStoresOnly : Obligations.MemoryChangesByStoresOnly :=
  fun _ _ _ h => (exec_effectOf h).sameMemory

/-- Settles O43: only the transfers write pc. -/
theorem onlyBranchesAndJumpsWritePc : Obligations.OnlyBranchesAndJumpsWritePc :=
  fun _ _ _ h => (exec_effectOf h).pc_eq

end Sys2Proof.Machine
end

section
/-! Settles the obligations on the invariants of the machine: each way a step can go keeps them. -/

namespace Sys2Proof.Machine

section
variable {s t : State}

theorem State.Inv.afterFetch (hs : s.Inv) : s.afterFetch.Inv :=
  ⟨hs.cfgOk, hs.memWf, hs.memIn, hs.task, hs.reported⟩

/-- An event leaves the CPU Vacant with no task, and memory as it is. -/
theorem State.Inv.notify (hs : s.Inv) (e : Event) : (s.notify e).Inv where
  cfgOk := hs.cfgOk
  memWf := hs.memWf
  memIn := hs.memIn
  task := by simp [State.taskMatches]
  reported := nofun

/-- Memory stays canonical and in the window: a store writes addresses that the bounds check admitted. -/
theorem Effect.keeps_memory (h : Effect s t) (hs : s.Inv) : Memory.wf t.mem ∧ t.memInWindow := by
  obtain ⟨hcfg, -, -⟩ := h.keeps
  simp only [State.memInWindow, hcfg]
  obtain hmem | ⟨a, n, k, ⟨hbase, htop⟩, hmem⟩ := h.memory
  · rw [hmem]
    exact ⟨hs.memWf, hs.memIn⟩
  · rw [hmem]
    refine ⟨Memory.wf_storeLE _ _ _ _ hs.memWf, fun p hp => ?_⟩
    obtain ⟨hge, hlt⟩ | hold := Memory.mem_storeLE _ _ _ _ hp
    · exact ⟨by omega, by omega⟩
    · exact hs.memIn p hold

theorem Effect.keeps_inv (h : Effect s t) (hs : s.Inv) : t.Inv := by
  obtain ⟨hcpu, htask, hreport⟩ | ⟨c, rfl⟩ := h.control
  · obtain ⟨hcfg, -, -⟩ := h.keeps
    obtain ⟨hwf, hin⟩ := h.keeps_memory hs
    refine ⟨hcfg ▸ hs.cfgOk, hwf, hin, ?task, ?reported⟩
    case task =>
      rw [State.taskMatches, hcpu, htask]
      exact hs.task
    case reported =>
      rw [State.reportMatches, hcpu, State.faulted_congr hreport, hreport]
      exact hs.reported
  · exact hs.notify _

end

/-- Settles O50: the fetch, the events and every effect of an instruction keep the invariant. -/
theorem stepKeepsTheMachineInvariant : Obligations.StepKeepsTheMachineInvariant := by
  intro s t hs h
  obtain ⟨-, -, rfl | ⟨i, hi⟩⟩ := step_effect h
  · exact hs.afterFetch.notify _
  · exact (exec_effect hi).keeps_inv hs.afterFetch

/-- Settles O51: nothing is written, no task is attached and nothing is reported at reset. -/
theorem resetMeetsTheMachineInvariant : Obligations.ResetMeetsTheMachineInvariant where
  cfgOk := by decide
  memWf := Memory.wf_nil
  memIn := nofun
  task := by simp [State.taskMatches]
  reported := nofun

/-- Settles O52: the one way to a new reservation is an LR.W whose load was admitted. -/
theorem stepKeepsTheReservationInTheWindow : Obligations.StepKeepsTheReservationInTheWindow := by
  intro s t hs h r hr
  obtain ⟨-, -, rfl | ⟨i, hi⟩⟩ := step_effect h
  · exact hs r hr
  · rw [(exec_effect hi).keeps.1]
    obtain hold | ⟨-, -, -, -, -, -, -, hadmits⟩ := (exec_effectOf hi).resv hr
    · exact hs r hold
    · exact hadmits

end Sys2Proof.Machine
end

section
/-! Settles the obligations on the outcomes of a step (40_step_cycle.md R111 to R117, R121, R128). -/

namespace Sys2Proof.Machine

/-! Each phase, and the stops before the first. -/

/-- Settles O44: past the signature test and the decoder, a step is exec. -/
theorem stepRunsTheDecodedInstruction : Obligations.StepRunsTheDecodedInstruction := by
  intro s i hready hadmits hsig hdecode
  rw [hready.step_eq_shuttle, shuttle_decodeAndRun hadmits (s.atSignature_eq_false_iff.2 hsig),
    decodeAndRun_some (s := s.afterFetch) hdecode]

/-- Settles O45: the fetch is the first phase, and it fails before anything is written. -/
theorem fetchOutsideTheWindowChangesNothing : Obligations.FetchOutsideTheWindowChangesNothing := by
  intro s hready hadmits
  rw [hready.step_eq_shuttle, shuttle_not_admitted hadmits]
  rfl

/-- Settles O46: the signature test stands before the decoder. -/
theorem trapSignatureFinishesTheTask : Obligations.TrapSignatureFinishesTheTask := by
  refine ⟨fun s hready hadmits hsig => ?_, rfl⟩
  rw [hready.step_eq_shuttle, shuttle_at_signature hadmits (s.atSignature_iff.2 hsig)]
  rfl

/-- Settles O47: past the signature test, a word that does not decode is fatal. -/
theorem invalidWordIsFatal : Obligations.InvalidWordIsFatal := by
  intro s hready hadmits hsig hdecode
  rw [hready.step_eq_shuttle, shuttle_decodeAndRun hadmits (s.atSignature_eq_false_iff.2 hsig),
    decodeAndRun_none (s := s.afterFetch) hdecode]
  rfl

theorem executeShuttle_vacant (n : Nat) {s : State} (h : s.cpuState = .vacant) :
    executeShuttle n s = ⟨.refused .stepWhileVacant, none, 0⟩ := by
  simp only [executeShuttle, h]

/-- Settles O48: each request tests the CPU state first. -/
theorem contractViolationsAreRefused : Obligations.ContractViolationsAreRefused := by
  intro s
  refine ⟨fun hvacant => ⟨step_vacant hvacant, fun n => ?_, s.detach_vacant hvacant⟩,
    fun hrun c id => s.attach_running c id hrun⟩
  rw [executeShuttle_vacant n hvacant]

/-- Settles O49: both stops stand before the first phase. -/
theorem stepsWithoutMeaningStop : Obligations.StepsWithoutMeaningStop := by
  intro s hrun
  refine ⟨fun st hfatal => step_faulted hrun (by simp [State.faulted, hfatal]), fun hclean hrefuse hpc => ?_⟩
  refine step_unaligned hrun (State.faulted_of_report_eq_none hclean) ?_
  rw [← Bool.not_eq_true, State.pcAdmitted_iff]
  rintro (hunchecked | haligned)
  · rw [hrefuse] at hunchecked
    cases hunchecked
  · exact hpc haligned

/-- Settles O55 from the parts of the state after reset. -/
theorem resetLeavesAVacantCpu : Obligations.ResetLeavesAVacantCpu :=
  ⟨State.reset_cpuState, State.reset_taskId, Memory.lookup_nil, State.reset_ctx_pc, State.reset_ctx_resv,
    State.reset.readReg_zero⟩

/-- Settles O56 by the equations of attach and detach. -/
theorem attachInstallsTheContextAsGiven : Obligations.AttachInstallsTheContextAsGiven := by
  intro s c id
  refine ⟨fun hvacant => ?_, fun hrun => ?_⟩
  · have hattach := s.attach_vacant c id hvacant
    exact ⟨_, _, hattach, rfl, rfl, rfl, rfl, rfl, rfl, rfl, State.detach_running _ rfl, rfl, rfl, rfl⟩
  · exact ⟨s.detached, s.detach_running hrun, rfl, rfl, rfl, rfl, rfl, rfl⟩

/-! Next states. -/

/-- Settles O53: the events hand back the Context that the fetch left, and every other effect keeps the CPU state, the
task and the report. -/
theorem stepContinuesOrReportsAnEvent : Obligations.StepContinuesOrReportsAnEvent := by
  intro s t hclean h
  obtain ⟨hrun, -, rfl | ⟨i, hi⟩⟩ := step_effect h
  · exact ⟨rfl, rfl, hrun, .inr ⟨rfl, rfl, .inl rfl, rfl, fun _ => rfl, rfl, fun _ => rfl⟩⟩
  · have heffect := exec_effect hi
    obtain ⟨hcfg, hir, -⟩ := heffect.keeps
    refine ⟨hcfg, hir, hrun, ?_⟩
    obtain ⟨hcpu, htask, hreport⟩ | ⟨c, rfl⟩ := heffect.control
    · exact .inl ⟨hcpu.trans hrun, htask, hreport.trans hclean⟩
    · exact .inr ⟨rfl, rfl, .inr ⟨c, rfl⟩, rfl, fun _ => rfl, rfl, fun _ => rfl⟩

/-- Settles O57: the pausing step left the CPU Vacant with the Context of the fetch, and attach installs it. -/
theorem resumingContinuesAfterThePause : Obligations.ResumingContinuesAfterThePause := by
  intro s t c id hclean h hpaused
  obtain ⟨-, -, -, ⟨-, -, hnone⟩ | ⟨hvacant, -, -, hpc, hregs, hresv, hmem⟩⟩ :=
    stepContinuesOrReportsAnEvent s t hclean h
  · rw [hpaused] at hnone
    cases hnone
  · exact ⟨_, t.attach_vacant t.ctx id hvacant, rfl, hpc, hregs, hresv, hmem, rfl, rfl, rfl⟩

/-! Fatal step errors. -/

section
variable {s : State} {rd : Reg} {a v : Word} {n : Nat}

theorem loadInto_next_or_raise {ext : Word → Word} :
    (∃ t, loadInto rd a n ext s = .next t) ∨ loadInto rd a n ext s = s.raise .memoryViolation :=
  (loadInto_cases s rd a n ext rfl).imp (fun ⟨_, _, h⟩ => ⟨_, h⟩) And.right

theorem storeTo_next_or_raise :
    (∃ t, storeTo a n v s = .next t) ∨ storeTo a n v s = s.raise .memoryViolation :=
  (storeTo_cases s v a n rfl).imp (fun ⟨_, _, h⟩ => ⟨_, h⟩) And.right

theorem amoOn_next_or_raise {f : Word → Word → Word} :
    (∃ t, amoOn f rd a v s = .next t) ∨ amoOn f rd a v s = s.raise .memoryViolation :=
  (amoOn_cases s rd v a f rfl).imp (fun ⟨_, _, _, _, h⟩ => ⟨_, h⟩) And.right

theorem execLrW_next_or_raise (aq rl : Bool) (rd rs1 rs2 : Reg) :
    (∃ t, execLrW aq rl rd rs1 rs2 s = .next t) ∨ execLrW aq rl rd rs1 rs2 s = s.raise .memoryViolation :=
  (execLrW_cases aq rl rd rs1 rs2 rfl).imp_left fun ⟨_, _, h⟩ => ⟨_, h⟩

theorem execScW_next_or_raise (aq rl : Bool) (rd rs1 rs2 : Reg) :
    (∃ t, execScW aq rl rd rs1 rs2 s = .next t) ∨ execScW aq rl rd rs1 rs2 s = s.raise .memoryViolation := by
  obtain ⟨_, _, h⟩ | h | h := execScW_cases (s := s) aq rl rd rs1 rs2 rfl
  · exact .inl ⟨_, h⟩
  · exact .inl ⟨_, h⟩
  · exact .inr h

/-- An instruction completes, or raises MemoryViolation in the state it began in (R116, R190, R240). -/
theorem exec_next_or_raise (i : Instr) (s : State) :
    (∃ t, exec i s = .next t) ∨ exec i s = s.raise .memoryViolation := by
  cases i
  case lb | lh | lw | lbu | lhu => exact loadInto_next_or_raise
  case sb | sh | sw => exact storeTo_next_or_raise
  case beq | bne | blt | bge | bltu | bgeu => exact .inl ⟨_, branchIf_eq ..⟩
  case lrW aq rl rd rs1 rs2 => exact execLrW_next_or_raise aq rl rd rs1 rs2
  case scW aq rl rd rs1 rs2 => exact execScW_next_or_raise aq rl rd rs1 rs2
  case amoswapW | amoaddW | amoxorW | amoandW | amoorW | amominW | amomaxW => exact amoOn_next_or_raise
  all_goals exact .inl ⟨_, rfl⟩

/-- Decoding and executing end in a fatal step error only by raising it in the state after the fetch. -/
theorem decodeAndRun_fatal {w : Word} {st : FatalStatus} {left : State}
    (h : decodeAndRun exec w s = .fault (.fatalStepError st left)) :
    st ≠ .unknown ∧ left = s.setReport (some (.fatal st)) := by
  cases hdecode : decode s.cfg.mEnabled w with
  | none =>
    rw [decodeAndRun_none hdecode] at h
    cases h
    exact ⟨nofun, rfl⟩
  | some i =>
    rw [decodeAndRun_some hdecode] at h
    obtain ⟨t, ht⟩ | hraise := exec_next_or_raise i s
    · rw [ht] at h
      cases h
    · rw [hraise] at h
      cases h
      exact ⟨nofun, rfl⟩

/-- Everything the phases can do when they end in a fatal step error: the fetch fails in the state before it, or a later
phase fails in the state after it. -/
theorem shuttle_fatal {st : FatalStatus} {left : State} (h : shuttle exec s = .fault (.fatalStepError st left)) :
    (¬s.cfg.admits s.ctx.pc.toNat 4 ∧ st = .memoryViolation ∧ left = s.setReport (some (.fatal st))) ∨
      (s.cfg.admits s.ctx.pc.toNat 4 ∧ st ≠ .unknown ∧ left = s.afterFetch.setReport (some (.fatal st))) := by
  by_cases hadmits : s.cfg.admits s.ctx.pc.toNat 4
  · cases hsig : s.atSignature with
    | true =>
      rw [shuttle_at_signature hadmits hsig] at h
      cases h
    | false =>
      rw [shuttle_decodeAndRun hadmits hsig] at h
      exact .inr ⟨hadmits, decodeAndRun_fatal h⟩
  · rw [shuttle_not_admitted hadmits] at h
    cases h
    exact .inl ⟨hadmits, rfl, rfl⟩

/-- A step ends in a fatal step error only in its phases. -/
theorem step_fatal {st : FatalStatus} {left : State} (h : step s = .fault (.fatalStepError st left)) :
    s.cpuState = .running ∧ shuttle exec s = .fault (.fatalStepError st left) := by
  cases hcpu : s.cpuState with
  | vacant =>
    rw [step_vacant hcpu] at h
    cases h
  | running =>
    cases hfault : s.faulted with
    | true =>
      rw [step_faulted hcpu hfault] at h
      cases h
    | false =>
      cases hpc : s.pcAdmitted with
      | false =>
        rw [step_unaligned hcpu hfault hpc] at h
        cases h
      | true => exact ⟨rfl, step_eq_shuttle hcpu hfault hpc ▸ h⟩

end

/-- Settles O54: a phase that fails raises the error in the state it began in. -/
theorem fatalErrorsLeaveTheStatePrecise : Obligations.FatalErrorsLeaveTheStatePrecise := by
  intro s left st h
  obtain ⟨hrun, hshuttle⟩ := step_fatal h
  obtain ⟨hadmits, rfl, rfl⟩ | ⟨hadmits, hst, rfl⟩ := shuttle_fatal hshuttle
  · exact ⟨nofun, rfl, hrun, rfl, rfl, fun _ => rfl, rfl, fun _ => rfl, .inl ⟨hadmits, rfl, rfl, rfl⟩⟩
  · exact ⟨hst, rfl, hrun, rfl, rfl, fun _ => rfl, rfl, fun _ => rfl, .inr ⟨hadmits, rfl, rfl⟩⟩

end Sys2Proof.Machine
end

section
/-! Settles the obligation on `execute_shuttle(N)` (40_step_cycle.md R118): a request as a recursion on its count. -/

namespace Sys2Proof.Machine

section
variable {s t : State}

/-- A step that continues leaves the CPU Running: the other next states report an event (R117). -/
theorem step_running (hclean : s.report = none) (hstep : step s = .next t) (ht : t.report = none) :
    t.cpuState = .running := by
  obtain ⟨-, -, -, ⟨hrun, -, -⟩ | ⟨-, -, hevent, -⟩⟩ := stepContinuesOrReportsAnEvent s t hclean hstep
  · exact hrun
  · simp [ht] at hevent

theorem executeShuttle_running (n : Nat) (h : s.cpuState = .running) : executeShuttle n s = runSteps n s none 0 := by
  simp only [executeShuttle, h]

/-! One step of a run. -/

section
variable (n : Nat) (last : Option StepOutcome) (done : Nat)

theorem runSteps_continue (h : step s = .next t) (hclean : t.report = none) :
    runSteps (n + 1) s last done = runSteps n t (some .continue) (done + 1) := by
  simp only [runSteps, h, hclean, ↓reduceIte]

theorem runSteps_event (h : step s = .next t) {r : Report} (hreport : t.report = some r) :
    runSteps (n + 1) s last done = ⟨.next t, some (outcomeOfReport (some r)), done + 1⟩ := by
  simp only [runSteps, h, hreport, reduceCtorEq, ↓reduceIte]

theorem runSteps_fatal {st : FatalStatus} {left : State} (h : step s = .fault (.fatalStepError st left)) :
    runSteps (n + 1) s last done = ⟨.fault (.fatalStepError st left), some (.fatal st), done + 1⟩ := by
  simp only [runSteps, h]

theorem runSteps_stuck (h : step s = .fault .stuckAfterFatal) :
    runSteps (n + 1) s last done = ⟨.fault .stuckAfterFatal, last, done⟩ := by
  simp only [runSteps, h]

theorem runSteps_refused {r : Refusal} (h : step s = .refused r) :
    runSteps (n + 1) s last done = ⟨.refused r, last, done⟩ := by
  simp only [runSteps, h]

end

/-- Where a run ends does not depend on the outcome and the count that it starts with, and the count is added. -/
theorem runSteps_start (n : Nat) (s : State) (last last' : Option StepOutcome) (done done' : Nat) :
    (runSteps n s last done).result = (runSteps n s last' done').result ∧
      (runSteps n s last done).steps + done' = (runSteps n s last' done').steps + done := by
  fun_induction runSteps n s last done generalizing last' done' with
  | case1 => exact ⟨rfl, Nat.add_comm ..⟩
  | case2 n s last done t hstep hclean ih =>
    obtain ⟨hresult, hsteps⟩ := ih (some .continue) (done' + 1)
    rw [runSteps_continue n last' done' hstep hclean]
    exact ⟨hresult, by omega⟩
  | case3 n s last done t hstep hreport =>
    obtain ⟨r, hr⟩ := Option.ne_none_iff_exists'.1 hreport
    rw [runSteps_event n last' done' hstep hr]
    exact ⟨rfl, by simp only; omega⟩
  | case4 n s last done st left hstep =>
    rw [runSteps_fatal n last' done' hstep]
    exact ⟨rfl, by simp only; omega⟩
  | case5 n s last done hstep =>
    rw [runSteps_stuck n last' done' hstep]
    exact ⟨rfl, Nat.add_comm ..⟩
  | case6 n s last done r hstep =>
    rw [runSteps_refused n last' done' hstep]
    exact ⟨rfl, Nat.add_comm ..⟩

/-- A request for `n` steps performs at most `n`. -/
theorem runSteps_steps_le (n : Nat) (s : State) (last : Option StepOutcome) (done : Nat) :
    (runSteps n s last done).steps ≤ n + done := by
  fun_induction runSteps n s last done with
  | case1 => exact Nat.le_add_left ..
  | case2 n s last done t hstep hclean ih => omega
  | case3 | case4 | case5 | case6 => simp only; omega

/-- A run that ends with nothing reported performed every step it was asked for. -/
theorem runSteps_steps_eq (n : Nat) (s : State) (last : Option StepOutcome) (done : Nat)
    (hresult : (runSteps n s last done).result = .next t) (hclean : t.report = none) :
    (runSteps n s last done).steps = n + done := by
  fun_induction runSteps n s last done with
  | case1 => exact (Nat.zero_add _).symm
  | case2 n s last done u hstep hu ih =>
    have := ih hresult
    omega
  | case3 n s last done u hstep hreport =>
    cases hresult
    exact absurd hclean hreport
  | case4 | case5 | case6 => cases hresult

end

/-- Settles O58: a step that continues leaves the CPU Running, so the rest of the request is a request of its own. -/
theorem executeShuttleStopsEarlyOrRunsAll : Obligations.ExecuteShuttleStopsEarlyOrRunsAll := by
  intro n s hrun hclean
  have hall (k : Nat) : executeShuttle k s = runSteps k s none 0 := executeShuttle_running k hrun
  simp only [hall]
  refine ⟨⟨rfl, rfl⟩, ?continues, ?event, ?fatal, runSteps_steps_le n s none 0,
    fun t hresult ht => runSteps_steps_eq n s none 0 hresult ht⟩
  case continues =>
    intro t hstep ht
    rw [runSteps_continue n none 0 hstep ht, executeShuttle_running n (step_running hclean hstep ht)]
    exact runSteps_start n t (some .continue) none 1 0
  case event =>
    intro t r hstep hr
    rw [runSteps_event n none 0 hstep hr]
    exact ⟨rfl, rfl, rfl⟩
  case fatal =>
    intro st left hstep
    rw [runSteps_fatal n none 0 hstep]
    exact ⟨rfl, rfl⟩

end Sys2Proof.Machine
end

section
/-! Settles the obligations on LBU and LHU, on the accesses that leave the window and on a load or a fetch after a store
(44_loads_stores.md R190 to R200, 20_memory.md R53, R66, R69). -/

namespace Sys2Proof.Machine

/-! The templates outside the window: a fault before any state changes (R190). -/

section
variable {s : State} {ea v : Word} {n : Nat}

theorem loadInto_not_admitted (rd : Reg) (extend : Word → Word) (h : ¬s.cfg.admits ea.toNat n) :
    loadInto rd ea n extend s = s.raise .memoryViolation := by
  simp only [loadInto, State.memRead_not_admitted s ea n h]

theorem storeTo_not_admitted (h : ¬s.cfg.admits ea.toNat n) : storeTo ea n v s = s.raise .memoryViolation := by
  simp only [storeTo, State.memWrite_not_admitted s v ea n h]

/-- A fatal step error raised in a state leaves that state but for the record (R117). -/
theorem fatalLeaving_raise {r : Result} {st : FatalStatus} (h : r = s.raise st) : FatalLeaving r st s := h

/-- The word just written is what MemRead answers in the state after the write (R66). -/
theorem State.memRead_memWrite {t : State} (h : s.memWrite ea 4 v = some t) : t.memRead ea 4 = some v := by
  obtain ⟨hadmits, rfl⟩ := State.memWrite_cases s t v ea 4 h
  rw [State.memRead_admitted, State.setResv_mem, State.setMem_mem, Memory.loadLE_storeLE,
    Nat.mod_eq_of_lt v.isLt, BitVec.ofNat_toNat, BitVec.setWidth_eq]
  exact hadmits

end

/-- Settles O24: each arm is the load template on the byte or the halfword. -/
theorem unsignedLoadsZeroExtend : Obligations.UnsignedLoadsZeroExtend := by
  intro s rd rs1 imm
  refine ⟨?lbu, ?lhu⟩
  case lbu =>
    exact fun h => completes_of_exec_eq_loadInto rfl h (congrArg (·.setWidth 32) (s.extractLsb'_loadLE_one _))
  case lhu =>
    exact fun h => completes_of_exec_eq_loadInto rfl h (congrArg (·.setWidth 32) (s.extractLsb'_loadLE_two _))

/-- Settles O25: each arm is the load template. -/
theorem loadsOutsideTheWindowChangeNothing : Obligations.LoadsOutsideTheWindowChangeNothing := by
  intro s rd rs1 imm
  refine ⟨?lb, ?lbu, ?lh, ?lhu, ?lw⟩
  case lb | lbu | lh | lhu | lw => exact fun h => fatalLeaving_raise (loadInto_not_admitted rd _ h)

/-- Settles O27: each arm is the store template. -/
theorem storesOutsideTheWindowWriteNothing : Obligations.StoresOutsideTheWindowWriteNothing := by
  intro s rs1 rs2 imm
  refine ⟨?sb, ?sh, ?sw⟩
  case sb | sh | sw => exact fun h => fatalLeaving_raise (storeTo_not_admitted h)

/-- Settles O28: the store leaves the base register, so the load has the same address. -/
theorem loadAfterStoreReturnsTheWord : Obligations.LoadAfterStoreReturnsTheWord := by
  intro s rd rs1 rs2 imm hadmits
  obtain ⟨t, hwrite, hstore⟩ := storeTo_admitted (s.readReg rs2) hadmits
  have hea : effectiveAddress t rs1 imm = effectiveAddress s rs1 imm :=
    congrArg (· + sextImm imm) ((storesAt_memWrite s t _ _ _ hwrite).regs rs1)
  have hload : exec (.lw rd rs1 imm) t = .next (t.writeReg rd (s.readReg rs2)) := by
    change loadInto rd (effectiveAddress t rs1 imm) 4 id t = _
    simp only [loadInto, hea, State.memRead_memWrite hwrite, id_eq]
  refine ⟨t, _, hstore, hload, ?_⟩
  rw [State.readReg_writeReg, if_pos rfl]

/-- Settles O29: the store leaves pc, and the fetch is a MemRead at pc. -/
theorem storeIntoTheNextInstructionIsFetched : Obligations.StoreIntoTheNextInstructionIsFetched := by
  intro s rs1 rs2 imm hpc hadmits
  obtain ⟨t, hwrite, hstore⟩ := storeTo_admitted (s.readReg rs2) hadmits
  have hpct : t.ctx.pc = effectiveAddress s rs1 imm :=
    (storesAt_memWrite s t _ _ _ hwrite).pc.trans hpc.symm
  refine ⟨t, hstore, ?_⟩
  rw [State.fetch, hpct]
  exact State.memRead_memWrite hwrite

end Sys2Proof.Machine
end

section
/-! Settles the obligations on the system instructions and the atomics (46_system.md R231, R232; 47_atomics.md R240 to
R249). -/

namespace Sys2Proof.Machine

/-- An event pauses the task: the Context is handed back as it is (R116, R124). -/
theorem pauses_notify (s : State) (c : PauseCause) : Pauses c s (s.notify (.pauseTask c)) :=
  ⟨rfl, rfl, rfl, rfl, rfl, rfl, rfl⟩

/-- Settles O34: both arms answer the state after the event. -/
theorem ecallAndEbreakPauseTheTask : Obligations.EcallAndEbreakPauseTheTask :=
  fun s _ _ => ⟨⟨_, rfl, pauses_notify s .envCall⟩, ⟨_, rfl, pauses_notify s .envBreak⟩⟩

/-! The effect of a store followed by a register write. -/

/-- An admitted MemWrite and a register write have the effect `SwapsAt` (R243). -/
theorem swapsAt_memWrite_writeReg {s t : State} {a new : Word} (rd : Reg) (old : Word)
    (h : s.memWrite a 4 new = some t) : SwapsAt a.toNat new rd old s (t.writeReg rd old) := by
  obtain ⟨hstored, hmem, hregs, hpc, hresv, hcontrol⟩ := storesAt_memWrite s t new a 4 h
  exact
    { stored := hstored
      mem := hmem
      regs := fun r => by rw [State.readReg_writeReg, hregs r]
      pc := (State.writeReg_pc ..).trans hpc
      resv := by simpa only [ResvAfterStore, State.writeReg_resv] using hresv
      control := ⟨(State.writeReg_ir ..).trans hcontrol.ir, hcontrol.cpuState, hcontrol.taskId, hcontrol.report,
        hcontrol.cfg, hcontrol.draws⟩ }

/-- Settles O35: the load's bytes are the word, and only the reservation and `rd` are written. -/
theorem loadReservedSetsTheReservation : Obligations.LoadReservedSetsTheReservation := by
  intro s aq rl rd rs1 rs2 hadmits
  refine ⟨_, execLrW_admitted aq rl rd rs1 rs2 hadmits, fun r => State.readReg_writeReg .., ?_⟩
  exact ⟨by simp, by simp, fun _ => rfl, by simp, rfl, rfl, rfl, rfl, rfl⟩

/-- A store at the reservation's own address covers it (R61). -/
theorem State.memWrite_resv_self {s t : State} {a v : Word} (h : s.memWrite a 4 v = some t)
    (hresv : s.ctx.resv = some a) : t.ctx.resv = none := by
  obtain ⟨-, rfl⟩ := State.memWrite_cases s t v a 4 h
  rw [State.setResv_ctx_resv, hresv]
  exact if_pos ⟨Nat.le_refl _, Nat.lt_add_of_pos_right (by decide)⟩

theorem State.setResv_self {s : State} {r : Option Word} (h : s.ctx.resv = r) : s.setResv r = s := by
  subst h
  rfl

/-- Settles O36: the store covers the reservation, so ending it changes nothing more. -/
theorem storeConditionalSucceedsOnItsReservation : Obligations.StoreConditionalSucceedsOnItsReservation := by
  intro s aq rl rd rs1 rs2 hresv hadmits
  obtain ⟨t, hwrite, -⟩ := storeTo_admitted (s.readReg rs2) hadmits
  have hnone : t.ctx.resv = none := State.memWrite_resv_self hwrite hresv
  have hexec : execScW aq rl rd rs1 rs2 s = .next (t.writeReg rd 0#32) := by
    rw [execScW_reserved aq rl rd rs1 rs2 hresv hwrite, State.setResv_self hnone]
  exact ⟨_, hexec, swapsAt_memWrite_writeReg rd 0#32 hwrite, (State.writeReg_resv ..).trans hnone⟩

/-- Settles O37: the arm makes no access. -/
theorem storeConditionalFailsWithoutItsReservation : Obligations.StoreConditionalFailsWithoutItsReservation := by
  intro s aq rl rd rs1 rs2 hresv
  refine ⟨_, execScW_not_reserved aq rl rd rs1 rs2 hresv, fun r => State.readReg_writeReg .., ?_⟩
  exact ⟨by simp, by simp, fun _ => rfl, by simp, rfl, rfl, rfl, rfl, rfl⟩

/-- An instruction whose arm is the AMO template on an admitted word completes with the effect `SwapsAt`, for any way
`new` to say the value it stores. -/
theorem completes_of_exec_eq_amoOn {i : Instr} {s : State} {rd : Reg} {a v new : Word} {f : Word → Word → Word}
    (hexec : exec i s = amoOn f rd a v s) (h : s.cfg.admits a.toNat 4) (hnew : f (s.wordAt a.toNat) v = new) :
    Completes i s (SwapsAt a.toNat new rd (s.wordAt a.toNat) s) := by
  obtain ⟨t, hwrite, hamo⟩ := amoOn_admitted s rd v a f h
  rw [State.loadLE_four] at hwrite hamo
  exact ⟨_, hexec.trans hamo, swapsAt_memWrite_writeReg rd _ (hnew ▸ hwrite)⟩

/-- Settles O38: each arm is the AMO template with its operation. -/
theorem amosWriteTheOperationAndReturnTheOldWord : Obligations.AmosWriteTheOperationAndReturnTheOldWord := by
  intro s aq rl rd rs1 rs2 hadmits
  refine ⟨?swap, ?add, ?and, ?or, ?xor⟩
  case swap | and | or | xor => exact completes_of_exec_eq_amoOn rfl hadmits rfl
  case add => exact completes_of_exec_eq_amoOn rfl hadmits (BitVec.add_def ..)

/-- The greater of two words as signed is the maximum of their integers (R248). -/
theorem maxSigned_eq_ofInt (t s : Word) : maxSigned t s = BitVec.ofInt 32 (max t.toInt s.toInt) := by
  rw [maxSigned, max_comm, max_def, apply_ite (BitVec.ofInt 32), BitVec.ofInt_toInt, BitVec.ofInt_toInt]

/-- The smaller of two words as signed is the minimum of their integers (R249). -/
theorem minSigned_eq_ofInt (t s : Word) : minSigned t s = BitVec.ofInt 32 (min t.toInt s.toInt) := by
  rw [minSigned, min_def, apply_ite (BitVec.ofInt 32), BitVec.ofInt_toInt, BitVec.ofInt_toInt]

/-- Settles O39: each arm is the AMO template with its comparison. -/
theorem amoMaxAndMinCompareAsSigned : Obligations.AmoMaxAndMinCompareAsSigned := by
  intro s aq rl rd rs1 rs2 hadmits
  refine ⟨?max, ?min⟩
  case max => exact completes_of_exec_eq_amoOn rfl hadmits (maxSigned_eq_ofInt ..)
  case min => exact completes_of_exec_eq_amoOn rfl hadmits (minSigned_eq_ofInt ..)

/-- Settles O40: the access is the first thing that LR.W, the AMOs and a reserved SC.W do. -/
theorem atomicsOutsideTheWindowChangeNothing : Obligations.AtomicsOutsideTheWindowChangeNothing := by
  intro s aq rl rd rs1 rs2 hadmits
  refine ⟨?lr, ?swap, ?add, ?xor, ?and, ?or, ?min, ?max, ?sc⟩
  case lr => exact fatalLeaving_raise (execLrW_not_admitted aq rl rd rs1 rs2 hadmits)
  case swap | add | xor | and | or | min | max => exact fatalLeaving_raise (amoOn_not_admitted s rd _ _ _ hadmits)
  case sc => exact fun hresv => fatalLeaving_raise (execScW_reserved_not_admitted aq rl rd rs1 rs2 hresv hadmits)

end Sys2Proof.Machine
end

section
/-! Settles the obligations on the bounds check and on `load_program` (20_memory.md R52, R54, R63). -/

namespace Sys2Proof.Machine

/-- A byte of a stored sequence. -/
theorem Memory.byte_storeBytes_inside (m : Memory) (a : Nat) (vs : List Byte) (k : Nat) (h : k < vs.length) :
    Memory.byte (Memory.storeBytes m a vs) (a + k) = vs[k] := by
  induction vs generalizing m a k with
  | nil => simp at h
  | cons w ws ih =>
    rw [Memory.storeBytes]
    cases k with
    | zero => rw [Memory.byte_storeBytes_outside _ _ _ _ (by omega)]; exact Memory.byte_write_same ..
    | succ k => rw [show a + (k + 1) = a + 1 + k by omega]; exact ih _ _ k (by simpa using h)

theorem State.loadProgram_exhausted {s : State} {bytes : List Byte} {region : Nat} (start : Nat) (tail : Bool)
    (h : region < bytes.length) : s.loadProgram bytes start region tail = .error .resourceExhausted :=
  if_pos h

theorem State.loadProgram_outOfRange {s : State} {bytes : List Byte} {start region : Nat} (tail : Bool)
    (hfits : bytes.length ≤ region) (h : ¬s.cfg.admits start region) :
    s.loadProgram bytes start region tail = .error .outOfRange := by
  simp only [State.loadProgram, Nat.not_lt.2 hfits, h, ↓reduceIte]

/-- A program that fits is stored with what follows it in the region: free bytes if asked, nothing otherwise (R63). -/
theorem State.loadProgram_admitted {s : State} {bytes : List Byte} {start region : Nat} (tail : Bool)
    (hfits : bytes.length ≤ region) (h : s.cfg.admits start region) :
    ∃ rest draws, bytes.length + rest.length ≤ region ∧ (tail = false → rest = []) ∧
      s.loadProgram bytes start region tail =
        .ok { s with mem := Memory.storeBytes s.mem start (bytes ++ rest), draws := draws } := by
  rw [State.loadProgram, if_neg (Nat.not_lt.2 hfits), if_pos h]
  cases tail with
  | false => exact ⟨[], s.draws, hfits, fun _ => rfl, by rw [List.append_nil]; rfl⟩
  | true =>
    refine ⟨tailBytes s.draws (start + bytes.length) (region - bytes.length), s.draws + 1, ?_, nofun, rfl⟩
    simp only [tailBytes, List.length_map, List.length_range]
    omega

/-- Settles O59: capacity, then bounds, then one sequence of bytes from `start` that stays in the region. -/
theorem loadProgramChecksCapacityThenBounds : Obligations.LoadProgramChecksCapacityThenBounds := by
  intro s bytes start region tail
  refine ⟨State.loadProgram_exhausted start tail, State.loadProgram_outOfRange tail, fun hfits hadmits => ?_⟩
  obtain ⟨rest, draws, hlength, hrest, hload⟩ := State.loadProgram_admitted tail hfits hadmits
  refine ⟨_, hload, rfl, rfl, rfl, rfl, rfl, fun k hk => ?inside, fun a ha => ?outside, fun htail a ha => ?tail⟩
  case inside =>
    refine (Memory.byte_storeBytes_inside s.mem start (bytes ++ rest) k (by simp; omega)).trans ?_
    exact List.getElem_append_left hk
  case outside => exact Memory.byte_storeBytes_outside _ _ _ _ (by rw [List.length_append]; omega)
  case tail =>
    refine Memory.byte_storeBytes_outside _ _ _ _ (.inr ?_)
    rw [hrest htail, List.append_nil]
    exact ha

/-! The bounds check is the whole condition of every access. -/

theorem isOk_ite_iff {ε α : Type} {p : Prop} [Decidable p] {x : α} {e : ε} :
    (if p then Except.ok x else Except.error e).isOk = true ↔ p := by
  by_cases hp : p
  · simp [hp, Except.isOk, Except.toBool]
  · simp [hp, Except.isOk, Except.toBool]

/-- Settles O60: each access tests `Config.admits` and nothing else. -/
theorem accessesAreAdmittedByTheWindowOnly : Obligations.AccessesAreAdmittedByTheWindowOnly := by
  intro s a n v w u bytes
  have hread (b : Nat) : (s.hostRead b).isOk = true ↔ s.cfg.admits b 1 := isOk_ite_iff
  refine ⟨Option.isSome_ite, Option.isSome_ite, isOk_ite_iff, isOk_ite_iff, isOk_ite_iff, isOk_ite_iff, ?below, ?above,
    ?edges⟩
  case below =>
    intro hpos
    rw [← Bool.not_eq_true, hread]
    omega
  case above =>
    rw [← Bool.not_eq_true, hread]
    omega
  case edges =>
    intro hpos
    rw [hread, hread]
    omega

end Sys2Proof.Machine
end
